-- ==== Sys2Proof/Syntax.lean ====
section
/-! DEFINITION. The ten commands, one constructor per row of spec/opcode_table.json (30_encoding.md R73).
No command carries an operand field (R70, R74): the direction bit of R72 is what tells `enc` from `dec`. -/

namespace Sys2Proof

/-- A command of the core (30_encoding.md R73). -/
inductive Instr where
  | subw   -- 0x00, 40_substitution.md R94
  | kexp   -- 0x10, 41_key_schedule.md R104
  | enc    -- 0x12, 42_round_function.md R115
  | dec    -- 0x13, 42_round_function.md R116
  | pad    -- 0x20, 43_hash_padding.md R128
  | hinit  -- 0x21, 44_hash_compression.md R145
  | hblk   -- 0x22, 44_hash_compression.md R146
  | hdig   -- 0x23, 44_hash_compression.md R147
  | hash   -- 0x24, 44_hash_compression.md R148
  | hash4  -- 0x30, 45_hash_4lane.md R165
  deriving DecidableEq, Repr

end Sys2Proof
end

