-- ==== Sys2Proof/Word.lean ====
section
/-! DEFINITION. The three widths the spec gives data: byte, word, length (00_scope.md R13, 10_state.md R34). -/

namespace Sys2Proof

/-- A byte: an unsigned integer 0 .. 255 (R13). -/
abbrev Byte := BitVec 8

/-- A word: an unsigned integer 0 .. 2^32 - 1 (R13); bit 0 is the least significant. -/
abbrev Word := BitVec 32

/-- A length register's contents: an unsigned 64-bit integer, in bytes (10_state.md R34). -/
abbrev Len := BitVec 64

end Sys2Proof
end

