-- ==== Sys2Proof/Decode.lean ====
section
/-! DEFINITION. The decoder, total on the 256 command words and on byte streams, and the encoder
(30_encoding.md R70 to R76). -/

namespace Sys2Proof

/-- Why a command word is not a command. Each is R75's "reserved"; the outcome of writing such a word to CMD is
always `Refused(IllegalCommand)` (60_exceptions.md R177). -/
inductive DecodeReject where
  /-- `unit` is 4 .. 15 and selects nothing (R71). -/
  | reservedUnit
  /-- `unit` selects a component and `fn` selects none of its operations (R73, R75). -/
  | reservedFunction
  /-- A byte stream that holds no command byte. -/
  | noCommandByte
  deriving DecidableEq, Repr

/-- `unit = c[7:4]` (R71). -/
def unitField (c : Byte) : BitVec 4 := c.extractLsb' 4 4

/-- `fn = c[3:0]` (R71). -/
def fnField (c : Byte) : BitVec 4 := c.extractLsb' 0 4

/-- Unit 1: `fn = 0` is the key schedule; `fn[3:1] = 001` is the round function with `fn[0]` the direction flag,
1 to decrypt (R72). -/
def decodeCipher (fn : BitVec 4) : Except DecodeReject Instr :=
  if fn = 0 then .ok .kexp
  else if fn.extractLsb' 1 3 = 1 then (if fn.extractLsb' 0 1 = 1 then .ok .dec else .ok .enc)
  else .error .reservedFunction

/-- Unit 2: padding and scalar compression (R73). -/
def decodeHash (fn : BitVec 4) : Except DecodeReject Instr :=
  if fn = 0 then .ok .pad
  else if fn = 1 then .ok .hinit
  else if fn = 2 then .ok .hblk
  else if fn = 3 then .ok .hdig
  else if fn = 4 then .ok .hash
  else .error .reservedFunction

/-- Units 0 and 3 hold one operation each, `fn = 0` (R73). -/
def decodeSingle (i : Instr) (fn : BitVec 4) : Except DecodeReject Instr :=
  if fn = 0 then .ok i else .error .reservedFunction

/-- The decoder: total, all 8 bits significant (R73, R76). -/
def decode (c : Byte) : Except DecodeReject Instr :=
  if unitField c = 0 then decodeSingle .subw (fnField c)
  else if unitField c = 1 then decodeCipher (fnField c)
  else if unitField c = 2 then decodeHash (fnField c)
  else if unitField c = 3 then decodeSingle .hash4 (fnField c)
  else .error .reservedUnit

/-- The next command of a byte stream and the rest of the stream; every command is one byte long (R70, R76). -/
def decodeBytes : List Byte → Except DecodeReject (Instr × List Byte)
  | [] => .error .noCommandByte
  | c :: rest =>
    match decode c with
    | .ok i => .ok (i, rest)
    | .error e => .error e

/-- All the commands of a byte stream, one byte each, in order; rejects at the first byte that is no command (R77). -/
def decodeStream : List Byte → Except DecodeReject (List Instr)
  | [] => .ok []
  | c :: rest =>
    match decode c with
    | .error e => .error e
    | .ok i =>
      match decodeStream rest with
      | .error e => .error e
      | .ok is => .ok (i :: is)

/-- The component that runs a command (R71). -/
def unitOf : Instr → BitVec 4
  | .subw => 0
  | .kexp | .enc | .dec => 1
  | .pad | .hinit | .hblk | .hdig | .hash => 2
  | .hash4 => 3

/-- The operation of its component (R73); for ENC and DEC bit 0 is the direction (R72). -/
def fnOf : Instr → BitVec 4
  | .subw => 0
  | .kexp => 0
  | .enc => 0b0010
  | .dec => 0b0011
  | .pad => 0
  | .hinit => 1
  | .hblk => 2
  | .hdig => 3
  | .hash => 4
  | .hash4 => 0

/-- The code of a command: `unit` in bits 7:4, `fn` in bits 3:0 (R71). -/
def encode (i : Instr) : Byte := unitOf i ++ fnOf i

/-- A command as the bytes written to CMD (30_encoding.md R77: one byte a command). -/
def encodeBytes (i : Instr) : List Byte := [encode i]

/-- The bytes a sequence of commands writes to CMD (30_encoding.md R77). -/
def encodeStream : List Instr → List Byte
  | [] => []
  | i :: is => encode i :: encodeStream is

/-- The host's question about a row of spec/opcode_table.json: the instruction read from the command word whose bits
are `w`. Every row has 8 bits and no operand word, so `_nbits` (always 8) adds nothing. -/
def decodeTableWord (_nbits w : Nat) : Option Instr :=
  match decodeBytes [BitVec.ofNat 8 w] with
  | .ok (i, _) => some i
  | .error _ => none

end Sys2Proof
end

