-- ==== Sys2Proof/Machine/Bits.lean ====
section
/-! DEFINITION. The notation primitives of 00_scope.md R13 to R15: rotation, packing, bytes of a word. -/

namespace Sys2Proof.Machine

/-- `rotl32(x, n)` for `0 <= n <= 31` (R14). -/
def rotl32 (x : Word) (n : Nat) : Word := if n = 0 then x else (x <<< n) ||| (x >>> (32 - n))

/-- `be32(b0, b1, b2, b3)`: four bytes to a word, first byte most significant (R15). -/
def be32 (b0 b1 b2 b3 : Byte) : Word :=
  (b0.setWidth 32 <<< 24) ||| (b1.setWidth 32 <<< 16) ||| (b2.setWidth 32 <<< 8) ||| b3.setWidth 32

/-- Byte `t` of a word, `t = 0` the most significant: element `t` of `bytes_be32(w)` (R15). -/
def byteOf (w : Word) (t : Nat) : Byte := w.extractLsb' (8 * (3 - t)) 8

/-- `bytes_be32(w) = (w[31:24], w[23:16], w[15:8], w[7:0])` (R15). -/
def bytesBe32 (w : Word) : List Byte := [byteOf w 0, byteOf w 1, byteOf w 2, byteOf w 3]

/-- `be64(n)`: eight bytes, first byte `n[63:56]`, last byte `n[7:0]` (R15). -/
def be64 (n : Nat) : List Byte := (List.range 8).map fun t => BitVec.ofNat 8 (n >>> (8 * (7 - t)))

/-- `word_be(s, i) = be32(s[4i], s[4i+1], s[4i+2], s[4i+3])` (R15). -/
def wordBe (s : List Byte) (i : Nat) : Word :=
  be32 (s.getD (4 * i) 0) (s.getD (4 * i + 1) 0) (s.getD (4 * i + 2) 0) (s.getD (4 * i + 3) 0)

/-- The first `m` bytes of a sequence of words: byte `4i + t` is byte `t` of word `i` (20_memory.md R51, R62). -/
def bytesOfWords (m : Nat) (w : List Word) : Vector Byte m :=
  Vector.ofFn fun i => byteOf (w.getD (i.val / 4) 0) (i.val % 4)

end Sys2Proof.Machine
end

