-- ==== Sys2Proof/Config.lean ====
section
/-! DEFINITION. What an implementation fixes (00_scope.md R10, R12) and the free values (10_state.md R40).
The constant tables of R11 are in Machine/Tables.lean. -/

namespace Sys2Proof.Config

/-- The largest value MSG_MAX may have, and the largest length whose bit length fits the 8-byte length field
(00_scope.md R12, 43_hash_padding.md R127). -/
def lengthLimit : Nat := 2 ^ 61 - 1

/-- MSG_MAX after `State.reset`. R12 leaves MSG_MAX open ("the model takes it as an argument"); this is the value the
spec's own vectors use (95_test_vectors.md L2-X1, L3-6). DESIGN CHOICE, unsafe (log 9): no statement rests on it. -/
def defaultMsgMax : Fin (2 ^ 61) := ⟨1024, by decide⟩

/-- What a host read of an unwritten byte returns: any value (10_state.md R40), a new one at each read (log 8). -/
opaque freeByte : Nat → Byte

/-- What a host read of an unwritten word returns: any value (10_state.md R40, log 8). -/
opaque freeWord : Nat → Word

/-- What a host read of an unwritten length register returns: any value (10_state.md R40, log 8). -/
opaque freeLen : Nat → Len

end Sys2Proof.Config
end

