-- ==== Sys2Proof/Machine/State.lean ====
section
/-! DEFINITION. The state of the core, what the host can do to it, and the state after RESET
(10_state.md R20 to R44, 20_memory.md R50, 70_reset_and_hazards.md R190, R203, R204). -/

namespace Sys2Proof.Machine

/-- One element of a register or buffer: "either **unwritten** or holds a value of its width" (10_state.md R40).
`unwritten` is the state the spec gives every element after RESET (R41), not a missing reset value (log 7). -/
inductive Slot (α : Type) where
  | unwritten
  | written (v : α)
  deriving DecidableEq, Repr

/-- A byte buffer: (offset, byte) pairs, offsets strictly rising; an unlisted byte is unwritten (10_state.md R41,
log 13). -/
abbrev Memory := List Host.Cell

/-- The six address spaces (20_memory.md R50). -/
inductive Space where
  | msg
  | pmsg
  | msg4 (k : Fin 4)
  deriving DecidableEq, Repr

/-- What holds bytes: elements of byte registers by index, buffer bytes by (space, offset) (20_memory.md R52, R56). -/
inductive ByteElem where
  | key (i : Fin 16)
  | blkIn (i : Fin 16)
  | blkOut (i : Fin 16)
  | hb (i : Fin 64)
  | dig (i : Fin 32)
  | dig4 (k : Fin 4) (i : Fin 32)
  | buf (S : Space) (a : Nat)
  deriving DecidableEq, Repr

/-- What holds words (20_memory.md R52). -/
inductive WordElem where
  | swIn
  | swOut
  | rk (i : Fin 32)
  | v (i : Fin 8)
  deriving DecidableEq, Repr

/-- The 64-bit length registers (10_state.md R34). -/
inductive LenElem where
  | mlen
  | plen
  | ml4 (k : Fin 4)
  deriving DecidableEq, Repr

/-- Everything the host can read and write: all but CMD, which it can only write (10_state.md R20). -/
inductive Elem where
  | byte (e : ByteElem)
  | word (e : WordElem)
  | len (e : LenElem)
  deriving DecidableEq, Repr

/-- What one host read returns: one byte, word or length (20_memory.md R54). -/
inductive HostValue where
  | byte (b : Byte)
  | word (w : Word)
  | len (l : Len)
  deriving DecidableEq, Repr

/-- What can happen to the core from outside, one access at a time, each complete before the next
(20_memory.md R54, R57; 70_reset_and_hazards.md R203, R204). -/
inductive HostAction where
  /-- The platform applies RESET, between commands (70_reset_and_hazards.md R190). -/
  | reset
  /-- The host writes `c` to CMD and so issues the command whose code is `c` (10_state.md R38). -/
  | cmd (c : Byte)
  | writeByte (e : ByteElem) (b : Byte)
  | writeWord (e : WordElem) (w : Word)
  | writeLen (e : LenElem) (l : Len)
  | read (e : Elem)
  /-- The host reads `src` and writes what it got to `dst`: one byte of `cpy` (30_encoding.md R77, log 15). -/
  | copyByte (dst src : ByteElem)
  /-- The host tries to read CMD, which is write-only (10_state.md R38); a named fault (log 12). -/
  | readCmd
  deriving DecidableEq, Repr

/-- Why the model's machine stops. No command raises one of these (60_exceptions.md R170). -/
inductive Fault where
  /-- Raised by a host access at an offset at or beyond the buffer's size: no such byte exists (20_memory.md R50).
  Safe: the machine stops where the spec gives no effect (log 11). -/
  | noSuchByte (S : Space) (a : Nat)
  /-- Raised by a host read of CMD: "write-only", "there is nothing to read back" (10_state.md R38). Safe (log 12). -/
  | commandRegisterRead
  deriving DecidableEq, Repr

/-- The refusal reasons of 60_exceptions.md R173, a closed list of four, and the one the pipeline asks for. -/
inductive Refusal where
  /-- Raised by `exec` for an instruction the model has not reached. Safe. No instruction of this model is. -/
  | notModelled (mnemonic : String)
  /-- Raised by a write to CMD of a reserved code (60_exceptions.md R177). Safe: R75 gives it no meaning. -/
  | illegalCommand
  /-- Raised by SUBW, KEXP, ENC, DEC, PAD, HBLK, HDIG, HASH, HASH4 when an operand element is unwritten
  (60_exceptions.md R174). Safe: the spec itself refuses. -/
  | unwrittenOperand
  /-- Raised by PAD, HASH, HASH4 when a length exceeds MSG_MAX or 2^61 - 1 (60_exceptions.md R175). Safe. -/
  | lengthOutOfRange
  /-- Raised by HASH4 when its four lengths are not all equal (60_exceptions.md R176). Safe. -/
  | laneLengthMismatch
  deriving DecidableEq, Repr

/-- The machine between two host actions. CMD has no field: it "keeps no value" (10_state.md R38). Constant tables are
definitions (R27); transient state lives inside one command (R35). -/
structure State where
  /-- `SW_IN` (R28). -/
  swIn : Slot Word
  /-- `SW_OUT` (R28). -/
  swOut : Slot Word
  /-- `KEY[0..15]` (R29). -/
  key : Vector (Slot Byte) 16
  /-- `RK[0..31]` (R30). -/
  rk : Vector (Slot Word) 32
  /-- `BLK_IN[0..15]` (R31). -/
  blkIn : Vector (Slot Byte) 16
  /-- `BLK_OUT[0..15]` (R31). -/
  blkOut : Vector (Slot Byte) 16
  /-- `V[0..7]` (R32). -/
  v : Vector (Slot Word) 8
  /-- `HB[0..63]` (R33). -/
  hb : Vector (Slot Byte) 64
  /-- `DIG[0..31]` (R33). -/
  dig : Vector (Slot Byte) 32
  /-- `MLEN` (R34). -/
  mlen : Slot Len
  /-- `PLEN` (R34). -/
  plen : Slot Len
  /-- `ML4[0..3]` (R34). -/
  ml4 : Vector (Slot Len) 4
  /-- `DIG4[0..3][0..31]` (R34). -/
  dig4 : Vector (Vector (Slot Byte) 32) 4
  /-- The buffer `MSG` (R43, 20_memory.md R50). -/
  msg : Memory
  /-- The buffer `PMSG` (R43). -/
  pmsg : Memory
  /-- The buffers `MSG4_0` .. `MSG4_3` (R43). -/
  msg4 : Vector Memory 4
  /-- MSG_MAX, a parameter of the implementation that nothing changes (00_scope.md R12, log 9). -/
  msgMax : Fin (2 ^ 61)
  /-- The sticky refusal mark (60_exceptions.md R172): `none` is clear, `some r` is set and `r` is the reason of the
  first refused command (log 5). -/
  refusal : Option Refusal
  /-- The host actions still to come, the next one first (70_reset_and_hazards.md R203, log 1). The model's own. -/
  script : List HostAction
  /-- The values returned to the host so far, the latest first (log 14). The model's own. -/
  reads : List HostValue
  /-- Which free value the next host read of an unwritten element takes (log 8). The model's own. -/
  freeIndex : Nat
  deriving DecidableEq, Repr

/-- The state after RESET of a core whose MSG_MAX is `m`: the table of 10_state.md R41. -/
def State.resetWith (m : Fin (2 ^ 61)) : State where
  swIn := .unwritten
  swOut := .unwritten
  key := Vector.replicate 16 .unwritten
  rk := Vector.replicate 32 .unwritten
  blkIn := Vector.replicate 16 .unwritten
  blkOut := Vector.replicate 16 .unwritten
  v := Vector.replicate 8 .unwritten
  hb := Vector.replicate 64 .unwritten
  dig := Vector.replicate 32 .unwritten
  mlen := .unwritten
  plen := .unwritten
  ml4 := Vector.replicate 4 .unwritten
  dig4 := Vector.replicate 4 (Vector.replicate 32 .unwritten)
  msg := []
  pmsg := []
  msg4 := Vector.replicate 4 []
  msgMax := m
  refusal := none
  script := []
  reads := []
  freeIndex := 0

/-- The state after RESET (10_state.md R41, 70_reset_and_hazards.md R191). -/
def State.reset : State := State.resetWith Config.defaultMsgMax

end Sys2Proof.Machine
end

