-- ==== Sys2Proof/Machine/Ops.lean ====
section
/-! DEFINITION. The named operations over elements, registers and byte buffers, one home for each register
(10_state.md R28 to R34, R40, R43; 20_memory.md R50, R55). The spec has no exception to take and none to return from
(60_exceptions.md R170, R180, R181); what a refused command leaves is in Flags.lean. -/

namespace Sys2Proof.Machine

/-! ### Slots -/

/-- Has something written the element since RESET (10_state.md R40)? -/
def Slot.isWritten {α : Type} : Slot α → Bool
  | .unwritten => false
  | .written _ => true

/-- The value of a written element. -/
def Slot.get? {α : Type} : Slot α → Option α
  | .unwritten => none
  | .written v => some v

/-- The value of a written element, `d` for an unwritten one. -/
def Slot.getD {α : Type} (d : α) : Slot α → α
  | .unwritten => d
  | .written v => v

/-- A whole register read: its values when EVERY element is written, else none (60_exceptions.md R174). -/
def readAll {w n : Nat} (r : Vector (Slot (BitVec w)) n) : Option (Vector (BitVec w) n) :=
  if r.toList.all Slot.isWritten then some (Vector.ofFn fun i => Slot.getD 0 r[i]) else none

/-- A whole register written, all elements together. -/
def writtenAll {α : Type} {n : Nat} (x : Vector α n) : Vector (Slot α) n := Vector.ofFn fun i => .written x[i]

/-! ### Byte buffers -/

/-- The byte at offset `a`. -/
def Memory.read : Memory → Nat → Slot Byte
  | [], _ => .unwritten
  | (b, w) :: rest, a => if a = b then .written w else Memory.read rest a

/-- The buffer with `x` at offset `a`; offsets stay strictly rising. -/
def Memory.write : Memory → Nat → Byte → Memory
  | [], a, x => [(a, x)]
  | (b, w) :: rest, a, x =>
    if a < b then (a, x) :: (b, w) :: rest
    else if a = b then (a, x) :: rest
    else (b, w) :: Memory.write rest a x

/-- `MemRead(S + a, n)`: the `n` bytes from offset `a`, none when one of them is unwritten (00_scope.md R16). -/
def Memory.readBytes (m : Memory) (a : Nat) : Nat → Option (List Byte)
  | 0 => some []
  | n + 1 =>
    match Memory.read m a with
    | .unwritten => none
    | .written b =>
      match Memory.readBytes m (a + 1) n with
      | none => none
      | some bs => some (b :: bs)

/-- `MemWrite(S + a, n, v)`: the bytes of `v` at offsets `a`, `a + 1`, … (00_scope.md R16). -/
def Memory.writeBytes (m : Memory) (a : Nat) : List Byte → Memory
  | [] => m
  | b :: bs => Memory.writeBytes (Memory.write m a b) (a + 1) bs

/-- The canonical form: offsets strictly rising. -/
def Memory.wf : Memory → Bool
  | [] => true
  | [_] => true
  | (a, _) :: (b, y) :: rest => decide (a < b) && Memory.wf ((b, y) :: rest)

/-- Every listed offset lies below the buffer's size. -/
def Memory.fits (size : Nat) (m : Memory) : Bool := m.all fun c => decide (c.1 < size)

/-- The buffer of a space. -/
def State.buffer (s : State) : Space → Memory
  | .msg => s.msg
  | .pmsg => s.pmsg
  | .msg4 k => s.msg4[k]

/-- The state with the buffer of a space replaced. -/
def State.setBuffer (s : State) (S : Space) (m : Memory) : State :=
  match S with
  | .msg => { s with msg := m }
  | .pmsg => { s with pmsg := m }
  | .msg4 k => { s with msg4 := s.msg4.set k m }

/-! ### Elements by name (20_memory.md R56) -/

/-- A byte element's contents. -/
def State.byteAt (s : State) : ByteElem → Slot Byte
  | .key i => s.key[i]
  | .blkIn i => s.blkIn[i]
  | .blkOut i => s.blkOut[i]
  | .hb i => s.hb[i]
  | .dig i => s.dig[i]
  | .dig4 k i => s.dig4[k][i]
  | .buf S a => (s.buffer S).read a

/-- A word element's contents. -/
def State.wordAt (s : State) : WordElem → Slot Word
  | .swIn => s.swIn
  | .swOut => s.swOut
  | .rk i => s.rk[i]
  | .v i => s.v[i]

/-- A length register's contents. -/
def State.lenAt (s : State) : LenElem → Slot Len
  | .mlen => s.mlen
  | .plen => s.plen
  | .ml4 k => s.ml4[k]

/-- One byte stored; nothing else changes (20_memory.md R55). -/
def State.setByte (s : State) (e : ByteElem) (b : Byte) : State :=
  match e with
  | .key i => { s with key := s.key.set i (.written b) }
  | .blkIn i => { s with blkIn := s.blkIn.set i (.written b) }
  | .blkOut i => { s with blkOut := s.blkOut.set i (.written b) }
  | .hb i => { s with hb := s.hb.set i (.written b) }
  | .dig i => { s with dig := s.dig.set i (.written b) }
  | .dig4 k i => { s with dig4 := s.dig4.set k (s.dig4[k].set i (.written b)) }
  | .buf S a => s.setBuffer S ((s.buffer S).write a b)

/-- One word stored; nothing else changes (20_memory.md R55). -/
def State.setWord (s : State) (e : WordElem) (w : Word) : State :=
  match e with
  | .swIn => { s with swIn := .written w }
  | .swOut => { s with swOut := .written w }
  | .rk i => { s with rk := s.rk.set i (.written w) }
  | .v i => { s with v := s.v.set i (.written w) }

/-- One length stored; nothing else changes (20_memory.md R55). -/
def State.setLen (s : State) (e : LenElem) (l : Len) : State :=
  match e with
  | .mlen => { s with mlen := .written l }
  | .plen => { s with plen := .written l }
  | .ml4 k => { s with ml4 := s.ml4.set k (.written l) }

/-- Is the element written (10_state.md R40)? -/
def State.isWritten (s : State) : Elem → Bool
  | .byte e => (s.byteAt e).isWritten
  | .word e => (s.wordAt e).isWritten
  | .len e => (s.lenAt e).isWritten

/-! ### Results of commands, each written as a whole (20_memory.md R54) -/

/-- `SW_OUT <- w`. -/
def State.putSwOut (s : State) (w : Word) : State := { s with swOut := .written w }

/-- `RK[0..31] <- k`, together. -/
def State.putRk (s : State) (k : Vector Word 32) : State := { s with rk := writtenAll k }

/-- `BLK_OUT[0..15] <- b`, together. -/
def State.putBlkOut (s : State) (b : Vector Byte 16) : State := { s with blkOut := writtenAll b }

/-- `V[0..7] <- x`, together. -/
def State.putV (s : State) (x : Vector Word 8) : State := { s with v := writtenAll x }

/-- `DIG[0..31] <- d`, together. -/
def State.putDig (s : State) (d : Vector Byte 32) : State := { s with dig := writtenAll d }

/-- `DIG4[0..3][0..31] <- d`, all four lanes together. -/
def State.putDig4 (s : State) (d : Vector (Vector Byte 32) 4) : State :=
  { s with dig4 := Vector.ofFn fun k => writtenAll d[k] }

/-- `PMSG[0 .. n-1] <- p` and `PLEN <- n`, `n` the length of `p`; bytes of PMSG beyond keep what they held. -/
def State.putPadded (s : State) (p : List Byte) : State :=
  { s with pmsg := s.pmsg.writeBytes 0 p, plen := .written (BitVec.ofNat 64 p.length) }

/-! ### RESET -/

/-- The RESET event between commands: every register and buffer byte unwritten, the refusal mark clear
(70_reset_and_hazards.md R190 to R192, log 6). What is not the block's own stays: MSG_MAX, the host's remaining script,
the values the host has read, the place in the free values. -/
def State.resetEvent (s : State) : State :=
  { State.resetWith s.msgMax with script := s.script, reads := s.reads, freeIndex := s.freeIndex }

end Sys2Proof.Machine
end

