-- ==== Sys2Proof/Machine/Operands.lean ====
section
/-! DEFINITION. How a command takes its operands: whole registers (20_memory.md R54), length registers and the message
prefix they delimit (R50, R62), and the refusals of 60_exceptions.md R174 to R176 in the order of R178. -/

namespace Sys2Proof.Machine

/-- What a command answers. -/
abbrev Result := Host.Outcome State Fault Refusal

/-- Use an operand, or refuse because an element of it is unwritten (60_exceptions.md R174). -/
def operand {α : Type} (o : Option α) (k : α → Result) : Result :=
  match o with
  | none => .refused .unwrittenOperand
  | some x => k x

/-- `L > MSG_MAX or L > 2^61 - 1` (60_exceptions.md R175). -/
def outOfRange (s : State) (L : Len) : Bool := decide (s.msgMax.val < L.toNat) || decide (Config.lengthLimit < L.toNat)

/-- Go on with a length in range, or refuse (60_exceptions.md R175). -/
def inRange (s : State) (L : Len) (k : Result) : Result :=
  if outOfRange s L then .refused .lengthOutOfRange else k

/-- The message of PAD and HASH: MLEN, then its bound, then `MSG[0 .. MLEN-1]` (43_hash_padding.md R128,
44_hash_compression.md R148). -/
def withMessage (s : State) (k : List Byte → Result) : Result :=
  operand s.mlen.get? fun L => inRange s L (operand (s.msg.readBytes 0 L.toNat) k)

/-- The four lane messages, each of `n` bytes; none when a byte of one is unwritten (45_hash_4lane.md R165). -/
def readLanes (s : State) (n : Nat) : Option (Vector (List Byte) 4) :=
  match s.msg4[0].readBytes 0 n, s.msg4[1].readBytes 0 n, s.msg4[2].readBytes 0 n, s.msg4[3].readBytes 0 n with
  | some m0, some m1, some m2, some m3 => some #v[m0, m1, m2, m3]
  | _, _, _, _ => none

/-- The LaneBatch of HASH4: the four lengths, their bounds, their equality, then the messages (45_hash_4lane.md R165). -/
def withLanes (s : State) (k : Vector (List Byte) 4 → Result) : Result :=
  operand (readAll s.ml4) fun L =>
    if L.toList.any (outOfRange s) then .refused .lengthOutOfRange
    else if ¬(L[0] = L[1] ∧ L[1] = L[2] ∧ L[2] = L[3]) then .refused .laneLengthMismatch
    else operand (readLanes s L[0].toNat) k

end Sys2Proof.Machine
end

