-- ==== Sys2Proof/Machine/Padding.lean ====
section
/-! DEFINITION. Hash Padding (43_hash_padding.md R125 to R128). -/

namespace Sys2Proof.Machine

/-- `padzeros(L) = (119 - (L mod 64)) mod 64` (R125). -/
def padzeros (L : Nat) : Nat := (119 - L % 64) % 64

/-- `padlen(L) = L + 1 + padzeros(L) + 8` (R126). -/
def padlen (L : Nat) : Nat := L + 1 + padzeros L + 8

/-- `nblocks(L) = padlen(L) / 64` (R126). -/
def nblocks (L : Nat) : Nat := padlen L / 64

/-- `Pad(m)`: the message, 0x80, zeros, the bit length as 8 big-endian bytes (R127). -/
def pad (m : List Byte) : List Byte :=
  m ++ ([0x80] ++ (List.replicate (padzeros m.length) 0 ++ be64 (8 * m.length)))

/-- PAD: `PMSG, PLEN <- Pad(MSG[0 .. MLEN-1])` (R128). -/
def execPad (s : State) : Result := withMessage s fun m => .next (s.putPadded (pad m))

end Sys2Proof.Machine
end

