-- ==== Sys2Proof/Machine/Compression.lean ====
section
/-! DEFINITION. The scalar Hash Compression Engine (44_hash_compression.md R135 to R148). -/

namespace Sys2Proof.Machine

/-- `P0(x)` (R135). -/
def p0 (x : Word) : Word := x ^^^ rotl32 x 9 ^^^ rotl32 x 17

/-- `P1(x)` (R135). -/
def p1 (x : Word) : Word := x ^^^ rotl32 x 15 ^^^ rotl32 x 23

/-- `FF(j, x, y, z)`: parity for `j <= 15`, majority after (R136). -/
def ff (j : Nat) (x y z : Word) : Word :=
  if j ≤ 15 then x ^^^ y ^^^ z else (x &&& y) ||| (x &&& z) ||| (y &&& z)

/-- `GG(j, x, y, z)`: parity for `j <= 15`, choice with selector `x` after (R137). -/
def gg (j : Nat) (x y z : Word) : Word :=
  if j ≤ 15 then x ^^^ y ^^^ z else (x &&& y) ||| (~~~x &&& z)

/-- `Tconst(j)` (R138). -/
def tConst (j : Nat) : Word := if j ≤ 15 then Config.TJ_LO else Config.TJ_HI

/-- The round constant as the round uses it: `rotl32(Tconst(j), j mod 32)` (R138). -/
def roundConst (j : Nat) : Word := rotl32 (tConst j) (j % 32)

/-- One step of the expansion: `W[j]` from the words before it, appended (R139). -/
def expandStep (W : List Word) (j : Nat) : List Word :=
  W ++ [p1 (W.getD (j - 16) 0 ^^^ W.getD (j - 9) 0 ^^^ rotl32 (W.getD (j - 3) 0) 15)
          ^^^ rotl32 (W.getD (j - 13) 0) 7 ^^^ W.getD (j - 6) 0]

/-- `Expand(blk)`: 16 big-endian words, then `W[16]` .. `W[67]` in increasing `j` (R139). -/
def expand (blk : Vector Byte 64) : List Word :=
  (List.range' 16 52).foldl expandStep ((List.range 16).map fun i => wordBe blk.toList i)

/-- `Derive(W)`: `W1[j] = W[j] ^ W[j+4]`, `j = 0 .. 63` (R140). -/
def deriveWords (W : List Word) : List Word := (List.range 64).map fun j => W.getD j 0 ^^^ W.getD (j + 4) 0

/-- The working registers `A .. H` (10_state.md R35). Transient. -/
structure Regs where
  a : Word
  b : Word
  c : Word
  d : Word
  e : Word
  f : Word
  g : Word
  h : Word
  deriving DecidableEq, Repr

/-- Load the working registers from the state (R142 step 4). -/
def loadRegs (v : Vector Word 8) : Regs := ⟨v[0], v[1], v[2], v[3], v[4], v[5], v[6], v[7]⟩

/-- The working registers in order. -/
def regWords (r : Regs) : Vector Word 8 := #v[r.a, r.b, r.c, r.d, r.e, r.f, r.g, r.h]

/-- `SS1` of round `j` (R141). -/
def ss1 (j : Nat) (r : Regs) : Word := rotl32 (rotl32 r.a 12 + r.e + roundConst j) 7

/-- `SS2` of round `j` (R141). -/
def ss2 (j : Nat) (r : Regs) : Word := ss1 j r ^^^ rotl32 r.a 12

/-- `TT1` of round `j`, which takes the derived word `W1[j]` (R141). -/
def tt1 (j : Nat) (r : Regs) (w1 : Word) : Word := ff j r.a r.b r.c + r.d + ss2 j r + w1

/-- `TT2` of round `j`, which takes the expanded word `W[j]` (R141). -/
def tt2 (j : Nat) (r : Regs) (w : Word) : Word := gg j r.e r.f r.g + r.h + ss1 j r + w

/-- `CFRound`: the eight updates, all from the values before the round (R141). -/
def cfRound (j : Nat) (r : Regs) (w w1 : Word) : Regs where
  a := tt1 j r w1
  b := r.a
  c := rotl32 r.b 9
  d := r.c
  e := p0 (tt2 j r w)
  f := r.e
  g := rotl32 r.f 19
  h := r.g

/-- The 64 rounds (R142 step 5). -/
def cfRounds (W W1 : List Word) (r : Regs) : Regs :=
  (List.range 64).foldl (fun r j => cfRound j r (W.getD j 0) (W1.getD j 0)) r

/-- `CF(Vin, blk)` (R142): expansion, 64 rounds, and the feedback by xor. -/
def cf (vin : Vector Word 8) (blk : Vector Byte 64) : Vector Word 8 :=
  Vector.ofFn fun i => vin[i] ^^^ (regWords (cfRounds (expand blk) (deriveWords (expand blk)) (loadRegs vin)))[i]

/-- `Digest(V)`: the state serialised big-endian (R143). -/
def digest (v : Vector Word 8) : Vector Byte 32 := bytesOfWords 32 v.toList

/-- Block `n` of a padded message: bytes `64n .. 64n+63` (R144). -/
def blockAt (p : List Byte) (n : Nat) : Vector Byte 64 := Vector.ofFn fun i => p.getD (64 * n + i.val) 0

/-- The blocks `0 .. n-1` of `p` folded, in order, from state `v` (R144). -/
def foldBlocks (p : List Byte) (n : Nat) (v : Vector Word 8) : Vector Word 8 :=
  (List.range n).foldl (fun v k => cf v (blockAt p k)) v

/-- `Hash(m)` (R144). -/
def sm3Hash (m : List Byte) : Vector Byte 32 := digest (foldBlocks (pad m) (nblocks m.length) Config.IV)

/-- HINIT: `V <- IV` (R145). -/
def execHinit (s : State) : Result := .next (s.putV Config.IV)

/-- HBLK: `V <- CF(V, HB)` (R146). -/
def execHblk (s : State) : Result :=
  operand (readAll s.v) fun vin => operand (readAll s.hb) fun blk => .next (s.putV (cf vin blk))

/-- HDIG: `DIG <- Digest(V)` (R147). -/
def execHdig (s : State) : Result := operand (readAll s.v) fun v => .next (s.putDig (digest v))

/-- HASH: `DIG <- Hash(MSG[0 .. MLEN-1])`, and nothing else (R148). -/
def execHash (s : State) : Result := withMessage s fun m => .next (s.putDig (sm3Hash m))

end Sys2Proof.Machine
end

