-- ==== Sys2Proof/Machine/Substitution.lean ====
section
/-! DEFINITION. The Substitution Engine (40_substitution.md R90 to R94). -/

namespace Sys2Proof.Machine

/-- `SubWord(w)`: the table applied to each of the four bytes, byte order kept (R91). -/
def subWord (w : Word) : Word :=
  ((Config.SBOX (byteOf w 0)).setWidth 32 <<< 24) ||| ((Config.SBOX (byteOf w 1)).setWidth 32 <<< 16)
    ||| ((Config.SBOX (byteOf w 2)).setWidth 32 <<< 8) ||| (Config.SBOX (byteOf w 3)).setWidth 32

/-- `SubWordT(w)`: the same by the four byte-position tables, as the engine computes it (R92). No command calls it:
R92 is "a theorem to prove". -/
def subWordT (w : Word) : Word :=
  Config.T 3 (byteOf w 0) ||| Config.T 2 (byteOf w 1) ||| Config.T 1 (byteOf w 2) ||| Config.T 0 (byteOf w 3)

/-- SUBW: `SW_OUT <- SubWord(SW_IN)` (R94). -/
def execSubw (s : State) : Result := operand s.swIn.get? fun w => .next (s.putSwOut (subWord w))

end Sys2Proof.Machine
end

