-- ==== Sys2Proof/Machine/KeySchedule.lean ====
section
/-! DEFINITION. The Block Cipher Key Schedule (41_key_schedule.md R100 to R104). -/

namespace Sys2Proof.Machine

/-- The sliding window of four words: `K[0..3]` of the key schedule, `X[0..3]` of the round function
(10_state.md R35). Transient. -/
structure Window where
  w0 : Word
  w1 : Word
  w2 : Word
  w3 : Word
  deriving DecidableEq, Repr

/-- `Lprime(x) = x ^ rotl32(x, 13) ^ rotl32(x, 23)` (R101). -/
def lPrime (x : Word) : Word := x ^^^ rotl32 x 13 ^^^ rotl32 x 23

/-- Key unpacking and whitening: `K[i] = be32(key[4i..4i+3]) ^ FK[i]` (R100). -/
def whiten (key : Vector Byte 16) : Window :=
  ⟨wordBe key.toList 0 ^^^ Config.FK 0, wordBe key.toList 1 ^^^ Config.FK 1,
   wordBe key.toList 2 ^^^ Config.FK 2, wordBe key.toList 3 ^^^ Config.FK 3⟩

/-- The round key of schedule round `i`: substitution first, then `L'`, then the xor with `K[0]` (R102). -/
def roundKey (i : Nat) (K : Window) : Word := K.w0 ^^^ lPrime (subWord (K.w1 ^^^ K.w2 ^^^ K.w3 ^^^ Config.CK i))

/-- The window slides: `K[0]` dropped, `n` appended (R102, 42_round_function.md R111). -/
def Window.slide (K : Window) (n : Word) : Window := ⟨K.w1, K.w2, K.w3, n⟩

/-- The round keys of the rounds listed, from window `K` (R103). -/
def keyRounds : List Nat → Window → List Word
  | [], _ => []
  | i :: is, K => roundKey i K :: keyRounds is (K.slide (roundKey i K))

/-- `KeySchedule(key)`: 32 round keys (R103). -/
def keySchedule (key : Vector Byte 16) : Vector Word 32 :=
  Vector.ofFn fun i => (keyRounds (List.range 32) (whiten key)).getD i.val 0

/-- KEXP: `RK[0..31] <- KeySchedule(KEY)` (R104). -/
def execKexp (s : State) : Result := operand (readAll s.key) fun key => .next (s.putRk (keySchedule key))

end Sys2Proof.Machine
end

