-- ==== Sys2Proof/Machine/Lanes.lean ====
section
/-! DEFINITION. The 4-lane Hash Compression Engine in its own wide form (45_hash_4lane.md R160 to R165): every word of
the scalar engine is a wide value and every operation its lift. That it computes four scalar digests is a statement to
prove (R162, R164), not its definition. -/

namespace Sys2Proof.Machine

/-- A wide value: four words, one a lane (R161, 10_state.md R39; the layout is unobservable, log 16). -/
structure Wide where
  l0 : Word
  l1 : Word
  l2 : Word
  l3 : Word
  deriving DecidableEq, Repr

/-- `xw.lane[k]`. -/
def Wide.lane (x : Wide) (k : Fin 4) : Word :=
  match k with
  | 0 => x.l0
  | 1 => x.l1
  | 2 => x.l2
  | 3 => x.l3

/-- The same word in every lane: a constant of the engine (R161). -/
def Wide.all (w : Word) : Wide := ⟨w, w, w, w⟩

/-- The lift of a one-argument operation (R161). -/
def Wide.map (op : Word → Word) (x : Wide) : Wide := ⟨op x.l0, op x.l1, op x.l2, op x.l3⟩

/-- The lift of a two-argument operation (R161). -/
def Wide.map2 (op : Word → Word → Word) (x y : Wide) : Wide :=
  ⟨op x.l0 y.l0, op x.l1 y.l1, op x.l2 y.l2, op x.l3 y.l3⟩

/-- The lift of a three-argument operation (R161). -/
def Wide.map3 (op : Word → Word → Word → Word) (x y z : Wide) : Wide :=
  ⟨op x.l0 y.l0 z.l0, op x.l1 y.l1 z.l1, op x.l2 y.l2 z.l2, op x.l3 y.l3 z.l3⟩

/-- The lift of xor. -/
def Wide.xor (x y : Wide) : Wide := Wide.map2 (· ^^^ ·) x y

/-- The lift of addition: each lane wraps on its own (R161). -/
def Wide.add (x y : Wide) : Wide := Wide.map2 (· + ·) x y

/-- The lift of `rotl32` by a lane-uniform amount. -/
def Wide.rotl (x : Wide) (n : Nat) : Wide := Wide.map (rotl32 · n) x

/-- The zero of every lane, for a list index that does not occur. -/
def Wide.zero : Wide := Wide.all 0

/-- Word `i` of the four blocks, lane `k` from block `k` (R161). -/
def wordBe4 (b : Vector (Vector Byte 64) 4) (i : Nat) : Wide :=
  ⟨wordBe b[0].toList i, wordBe b[1].toList i, wordBe b[2].toList i, wordBe b[3].toList i⟩

/-- The lift of one expansion step (R139, R161). -/
def expandStep4 (W : List Wide) (j : Nat) : List Wide :=
  W ++ [(((Wide.map p1 (((W.getD (j - 16) .zero).xor (W.getD (j - 9) .zero)).xor
            ((W.getD (j - 3) .zero).rotl 15))).xor ((W.getD (j - 13) .zero).rotl 7)).xor (W.getD (j - 6) .zero))]

/-- The wide message words `WW[0..67]` (10_state.md R39). -/
def expand4 (b : Vector (Vector Byte 64) 4) : List Wide :=
  (List.range' 16 52).foldl expandStep4 ((List.range 16).map fun i => wordBe4 b i)

/-- The wide derived words `W1W[0..63]` (10_state.md R39). -/
def deriveWords4 (W : List Wide) : List Wide :=
  (List.range 64).map fun j => (W.getD j .zero).xor (W.getD (j + 4) .zero)

/-- The wide working registers `AW .. HW` (10_state.md R39). Transient. -/
structure Regs4 where
  a : Wide
  b : Wide
  c : Wide
  d : Wide
  e : Wide
  f : Wide
  g : Wide
  h : Wide
  deriving DecidableEq, Repr

/-- The lift of `SS1`. -/
def ss1Wide (j : Nat) (r : Regs4) : Wide := (((r.a.rotl 12).add r.e).add (Wide.all (roundConst j))).rotl 7

/-- The lift of `SS2`. -/
def ss2Wide (j : Nat) (r : Regs4) : Wide := (ss1Wide j r).xor (r.a.rotl 12)

/-- The lift of `TT1`. -/
def tt1Wide (j : Nat) (r : Regs4) (w1 : Wide) : Wide :=
  (((Wide.map3 (ff j) r.a r.b r.c).add r.d).add (ss2Wide j r)).add w1

/-- The lift of `TT2`. -/
def tt2Wide (j : Nat) (r : Regs4) (w : Wide) : Wide :=
  (((Wide.map3 (gg j) r.e r.f r.g).add r.h).add (ss1Wide j r)).add w

/-- The lift of one compression round (R141, R161): the round number and the constants are the same in all lanes. -/
def cfRound4 (j : Nat) (r : Regs4) (w w1 : Wide) : Regs4 where
  a := tt1Wide j r w1
  b := r.a
  c := r.b.rotl 9
  d := r.c
  e := Wide.map p0 (tt2Wide j r w)
  f := r.e
  g := r.f.rotl 19
  h := r.g

/-- The 64 rounds in lockstep. -/
def cfRounds4 (W W1 : List Wide) (r : Regs4) : Regs4 :=
  (List.range 64).foldl (fun r j => cfRound4 j r (W.getD j .zero) (W1.getD j .zero)) r

/-- The wide state registers `VW[0..7]` loaded into the working registers. -/
def loadRegs4 (v : Vector Wide 8) : Regs4 := ⟨v[0], v[1], v[2], v[3], v[4], v[5], v[6], v[7]⟩

/-- The wide working registers in order. -/
def regWords4 (r : Regs4) : Vector Wide 8 := #v[r.a, r.b, r.c, r.d, r.e, r.f, r.g, r.h]

/-- `CF4(VW, b0, b1, b2, b3)` (R162). -/
def cf4 (vw : Vector Wide 8) (b : Vector (Vector Byte 64) 4) : Vector Wide 8 :=
  Vector.ofFn fun i => vw[i].xor (regWords4 (cfRounds4 (expand4 b) (deriveWords4 (expand4 b)) (loadRegs4 vw)))[i]

/-- The state of lane `k`: `(VW[0].lane[k], .., VW[7].lane[k])` (R162). -/
def laneState (vw : Vector Wide 8) (k : Fin 4) : Vector Word 8 := Vector.ofFn fun i => vw[i].lane k

/-- `VW[i].lane[k] = IV[i]` (R164). -/
def iv4 : Vector Wide 8 := Vector.ofFn fun i => Wide.all Config.IV[i]

/-- Block `n` of each of the four padded messages. -/
def blocksAt (p : Vector (List Byte) 4) (n : Nat) : Vector (Vector Byte 64) 4 := Vector.ofFn fun k => blockAt p[k] n

/-- `Hash4(m0, m1, m2, m3)` for four messages of the same length (R164): pad, fold in lockstep, one digest a lane. -/
def sm3Hash4 (m : Vector (List Byte) 4) : Vector (Vector Byte 32) 4 :=
  let p : Vector (List Byte) 4 := Vector.ofFn fun k => pad m[k]
  let vw := (List.range (nblocks m[0].length)).foldl (fun vw n => cf4 vw (blocksAt p n)) iv4
  Vector.ofFn fun k => digest (laneState vw k)

/-- HASH4: `DIG4[k] <- ` the digest of lane `k`, all four together, and nothing else (R165). -/
def execHash4 (s : State) : Result := withLanes s fun m => .next (s.putDig4 (sm3Hash4 m))

end Sys2Proof.Machine
end

