-- ==== Sys2Proof/Machine/RoundFunction.lean ====
section
/-! DEFINITION. The Block Cipher Round Function (42_round_function.md R110 to R116). -/

namespace Sys2Proof.Machine

/-- `Lround(x)`: x xored with its rotations by 2, 10, 18 and 24 (R110). -/
def lRound (x : Word) : Word := x ^^^ rotl32 x 2 ^^^ rotl32 x 10 ^^^ rotl32 x 18 ^^^ rotl32 x 24

/-- `CipherRound(X, k)` (R111). -/
def cipherRound (X : Window) (k : Word) : Window :=
  X.slide (X.w0 ^^^ lRound (subWord (X.w1 ^^^ X.w2 ^^^ X.w3 ^^^ k)))

/-- `RoundKeyFor(rk, r, d)`: forward order to encrypt, reverse order to decrypt (R112). -/
def roundKeyFor (rk : Vector Word 32) (r : Nat) (d : Bool) : Word :=
  if d then rk.toList.getD (31 - r) 0 else rk.toList.getD r 0

/-- The input block as four big-endian words (R113). -/
def unpackBlock (b : Vector Byte 16) : Window :=
  ⟨wordBe b.toList 0, wordBe b.toList 1, wordBe b.toList 2, wordBe b.toList 3⟩

/-- The 32 rounds (R113). -/
def cipherRounds (X : Window) (rk : Vector Word 32) (d : Bool) : Window :=
  (List.range 32).foldl (fun X r => cipherRound X (roundKeyFor rk r d)) X

/-- The reverse permutation, applied once after the last round: words 0 and 3, 1 and 2 swapped (R114). -/
def reverseWords (X : Window) : List Word := [X.w3, X.w2, X.w1, X.w0]

/-- `Crypt(in, rk, d)` (R113). -/
def crypt (input : Vector Byte 16) (rk : Vector Word 32) (d : Bool) : Vector Byte 16 :=
  bytesOfWords 16 (reverseWords (cipherRounds (unpackBlock input) rk d))

/-- What ENC and DEC share: they differ in the direction and in nothing else (R116). -/
def cryptCommand (d : Bool) (s : State) : Result :=
  operand (readAll s.blkIn) fun input =>
    operand (readAll s.rk) fun rk => .next (s.putBlkOut (crypt input rk d))

/-- ENC: `BLK_OUT <- Crypt(BLK_IN, RK, 0)` (R115). -/
def execEnc (s : State) : Result := cryptCommand false s

/-- DEC: `BLK_OUT <- Crypt(BLK_IN, RK, 1)` (R116). -/
def execDec (s : State) : Result := cryptCommand true s

end Sys2Proof.Machine
end

