-- ==== Sys2Proof/Machine/Dispatch.lean ====
section
/-! DEFINITION. One arm per command. -/

namespace Sys2Proof.Machine

def exec (i : Instr) (s : State) : Host.Outcome State Fault Refusal :=
  match i with
  | .subw => Sys2Proof.Machine.execSubw s
  | .kexp => Sys2Proof.Machine.execKexp s
  | .enc => Sys2Proof.Machine.execEnc s
  | .dec => Sys2Proof.Machine.execDec s
  | .pad => Sys2Proof.Machine.execPad s
  | .hinit => Sys2Proof.Machine.execHinit s
  | .hblk => Sys2Proof.Machine.execHblk s
  | .hdig => Sys2Proof.Machine.execHdig s
  | .hash => Sys2Proof.Machine.execHash s
  | .hash4 => Sys2Proof.Machine.execHash4 s

end Sys2Proof.Machine
end

