-- ==== Sys2Proof/Machine/Flags.lean ====
section
/-! DEFINITION. The hardware has no status flag, condition code or predicate (10_state.md R37), so no command computes
one. The one mark there is is the model's own: the sticky refusal mark of 60_exceptions.md R172. -/

namespace Sys2Proof.Machine

/-- What a refused command leaves: "the state after it is identical to the state before it", with the sticky mark set
(60_exceptions.md R172, R181). The first reason stays (log 5). -/
def State.markRefused (s : State) (r : Refusal) : State :=
  { s with refusal := match s.refusal with
      | none => some r
      | some r₀ => some r₀ }

end Sys2Proof.Machine
end

