-- ==== Sys2Proof/Machine/HostActions.lean ====
section
/-! DEFINITION. What each host action does: CMD writes, register and buffer accesses, RESET
(10_state.md R38, R40; 20_memory.md R50, R54 to R58; 70_reset_and_hazards.md R190 to R192, R204). -/

namespace Sys2Proof.Machine

/-- The size of a buffer in bytes: MSG_MAX, and PMSG_MAX = padlen(MSG_MAX) for PMSG (20_memory.md R50,
00_scope.md R12). -/
def State.bufferSize (s : State) : Space → Nat
  | .msg => s.msgMax.val
  | .pmsg => padlen s.msgMax.val
  | .msg4 _ => s.msgMax.val

/-- Go on when the byte exists, else fault. Register elements always exist; a buffer byte does below the buffer's size
(20_memory.md R50, log 11). -/
def ifByteExists (s : State) (e : ByteElem) (k : Result) : Result :=
  match e with
  | .buf S a => if a < s.bufferSize S then k else .fault (.noSuchByte S a)
  | .key _ | .blkIn _ | .blkOut _ | .hb _ | .dig _ | .dig4 _ _ => k

/-- The free-value counter moves on after a read of an unwritten element (log 8). -/
def State.useFree (s : State) {α : Type} (x : Slot α) : State :=
  if x.isWritten then s else { s with freeIndex := s.freeIndex + 1 }

/-- What a host read of a byte returns: its value, or any value when it is unwritten (10_state.md R40). -/
def State.hostByte (s : State) (e : ByteElem) : Byte := (s.byteAt e).getD (Config.freeByte s.freeIndex)

/-- What a host read of a word returns (10_state.md R40). -/
def State.hostWord (s : State) (e : WordElem) : Word := (s.wordAt e).getD (Config.freeWord s.freeIndex)

/-- What a host read of a length register returns (10_state.md R40). -/
def State.hostLen (s : State) (e : LenElem) : Len := (s.lenAt e).getD (Config.freeLen s.freeIndex)

/-- A value goes to the host; "reading any register or buffer byte changes no state" of the block (20_memory.md R55). -/
def State.deliver (s : State) (x : HostValue) : State := { s with reads := x :: s.reads }

/-- A host read of one element (20_memory.md R54, R55, R58). -/
def hostRead (s : State) : Elem → Result
  | .byte e => ifByteExists s e (.next ((s.useFree (s.byteAt e)).deliver (.byte (s.hostByte e))))
  | .word e => .next ((s.useFree (s.wordAt e)).deliver (.word (s.hostWord e)))
  | .len e => .next ((s.useFree (s.lenAt e)).deliver (.len (s.hostLen e)))

/-- A host copy of one byte: the read, then the write of what it returned (30_encoding.md R77, log 15). -/
def hostCopy (s : State) (dst src : ByteElem) : Result :=
  ifByteExists s src (ifByteExists s dst
    (.next (((s.useFree (s.byteAt src)).deliver (.byte (s.hostByte src))).setByte dst (s.hostByte src))))

/-- A write of `c` to CMD: the command runs as one atomic step, or is refused (10_state.md R38, 60_exceptions.md
R177). -/
def issue (c : Byte) (s : State) : Result :=
  match decode c with
  | .ok i => exec i s
  | .error _ => .refused .illegalCommand

/-- A refused command changes nothing but the sticky mark, and the host's next action is evaluated as usual
(60_exceptions.md R172, R181; log 4). -/
def absorbRefusal (s : State) : Result → Result
  | .refused r => .next (s.markRefused r)
  | .next t => .next t
  | .fault f => .fault f

/-- One host action, complete before the next (70_reset_and_hazards.md R203). -/
def perform (a : HostAction) (s : State) : Result :=
  match a with
  | .reset => .next s.resetEvent
  | .cmd c => absorbRefusal s (issue c s)
  | .writeByte e b => ifByteExists s e (.next (s.setByte e b))
  | .writeWord e w => .next (s.setWord e w)
  | .writeLen e l => .next (s.setLen e l)
  | .read e => hostRead s e
  | .copyByte dst src => hostCopy s dst src
  | .readCmd => .fault .commandRegisterRead

/-- The next host action of the script; when there is none the block is idle and holds its state (60_exceptions.md
R186, log 3). -/
def runNext (s : State) : Result :=
  match s.script with
  | [] => .next s
  | a :: rest => perform a { s with script := rest }

/-- A CMD write of the code `c` put before the rest of the script (log 2). -/
def State.enqueueCommand (s : State) (c : Byte) : State := { s with script := .cmd c :: s.script }

end Sys2Proof.Machine
end

