-- ==== Sys2Proof/Machine/Step.lean ====
section
/-! DEFINITION. One step of the machine: the next host action of the script (70_reset_and_hazards.md R203). -/

namespace Sys2Proof.Machine

/-- One step. -/
def step (s : State) : Host.Outcome State Fault Refusal := runNext s

/-- The state whose next step writes the command word `w` to CMD: the block fetches nothing (10_state.md R36), so the
place a command comes from is the host's script (log 2). -/
def State.withFetchWord (s : State) (_nbits w : Nat) : State := s.enqueueCommand (BitVec.ofNat 8 w)

end Sys2Proof.Machine
end

