-- ==== Sys2Proof/Machine/Script.lean ====
section
/-! DEFINITION. The host script notation and its pseudo-commands as lists of host actions (30_encoding.md R77, R78).
They add no behaviour. -/

namespace Sys2Proof.Machine.Script

/-- `cmd <MNEMONIC>`: write the code of the command to CMD. -/
def cmd (i : Instr) : List HostAction := [.cmd (encode i)]

/-- `wr SW_IN, w`. -/
def wrSwIn (w : Word) : List HostAction := [.writeWord .swIn w]

/-- `wr MLEN, l`. -/
def wrMlen (l : Nat) : List HostAction := [.writeLen .mlen (BitVec.ofNat 64 l)]

/-- `wr ML4[k], l`. -/
def wrMl4 (k : Fin 4) (l : Nat) : List HostAction := [.writeLen (.ml4 k) (BitVec.ofNat 64 l)]

/-- `wrb KEY, hex`. -/
def wrbKey (x : Vector Byte 16) : List HostAction := (List.finRange 16).map fun i => .writeByte (.key i) x[i]

/-- `wrb BLK_IN, hex`. -/
def wrbBlkIn (x : Vector Byte 16) : List HostAction := (List.finRange 16).map fun i => .writeByte (.blkIn i) x[i]

/-- `wrb HB, hex`. -/
def wrbHb (x : Vector Byte 64) : List HostAction := (List.finRange 64).map fun i => .writeByte (.hb i) x[i]

/-- `wrb S+a, hex`. -/
def wrbBuf (S : Space) : Nat → List Byte → List HostAction
  | _, [] => []
  | a, b :: bs => .writeByte (.buf S a) b :: wrbBuf S (a + 1) bs

/-- `wrw RK, w0 w1 ...`. -/
def wrwRk (x : Vector Word 32) : List HostAction := (List.finRange 32).map fun i => .writeWord (.rk i) x[i]

/-- `wrw V, w0 w1 ...`. -/
def wrwV (x : Vector Word 8) : List HostAction := (List.finRange 8).map fun i => .writeWord (.v i) x[i]

/-- `rd S+a, n`. -/
def rdBuf (S : Space) (a n : Nat) : List HostAction := (List.range n).map fun i => .read (.byte (.buf S (a + i)))

/-- `rd DIG`, element 0 first. -/
def rdDig : List HostAction := (List.finRange 32).map fun i => .read (.byte (.dig i))

/-- `rd BLK_OUT`, element 0 first. -/
def rdBlkOut : List HostAction := (List.finRange 16).map fun i => .read (.byte (.blkOut i))

/-- `rd V`, element 0 first. -/
def rdV : List HostAction := (List.finRange 8).map fun i => .read (.word (.v i))

/-- `rd DIG4[k]`, element 0 first. -/
def rdDig4 (k : Fin 4) : List HostAction := (List.finRange 32).map fun i => .read (.byte (.dig4 k i))

/-- `cpy HB, PMSG+a`: for `i = 0 .. 63`, `HB[i] <- MemRead(PMSG + a + i, 1)`. -/
def cpyHb (a : Nat) : List HostAction := (List.finRange 64).map fun i => .copyByte (.hb i) (.buf .pmsg (a + i.val))

/-- `CRYPT d`. -/
def crypt (d : Bool) : List HostAction := if d then cmd .dec else cmd .enc

/-- `SM4KS key`. -/
def sm4ks (key : Vector Byte 16) : List HostAction := wrbKey key ++ cmd .kexp

/-- `SM4 blk, d`. -/
def sm4 (blk : Vector Byte 16) (d : Bool) : List HostAction := wrbBlkIn blk ++ crypt d

/-- `SM3 msg`. -/
def sm3 (m : List Byte) : List HostAction := wrbBuf .msg 0 m ++ wrMlen m.length ++ cmd .hash

/-- `SM3X4 m0, m1, m2, m3`. -/
def sm3x4 (m : Vector (List Byte) 4) : List HostAction :=
  ((List.finRange 4).flatMap fun k => wrbBuf (.msg4 k) 0 m[k] ++ wrMl4 k m[k].length) ++ cmd .hash4

/-- `SM3S msg`: the same digest by the streaming commands (44_hash_compression.md R150). -/
def sm3s (m : List Byte) : List HostAction :=
  wrbBuf .msg 0 m ++ wrMlen m.length ++ cmd .pad ++ cmd .hinit
    ++ ((List.range (nblocks m.length)).flatMap fun n => cpyHb (64 * n) ++ cmd .hblk) ++ cmd .hdig

end Sys2Proof.Machine.Script
end

