-- ==== Sys2Proof/Safety.lean ====
section
/-! DEFINITION. What counts as a good run, and the form a state must have. -/

namespace Sys2Proof.Machine

/-- No command has been refused since RESET: "a run is good when no command in it was refused"
(70_reset_and_hazards.md R203, 60_exceptions.md R172). -/
def State.good (s : State) : Bool := decide (s.refusal = none)

/-- A buffer is in canonical form and lists no offset outside its size (20_memory.md R50, R63). -/
def State.bufferOk (s : State) (S : Space) : Bool := (s.buffer S).wf && (s.buffer S).fits (s.bufferSize S)

/-- The invariant: all six buffers are canonical and within bounds. -/
def State.inv (s : State) : Prop := ∀ S : Space, s.bufferOk S = true

end Sys2Proof.Machine
end

