-- ==== Sys2Proof/WellFormed.lean ====
section
/-! DEFINITION. What is well formed. An instruction has no operand field, so nothing of it can be ill formed
(30_encoding.md R70, R74); a command WORD can be: 246 of the 256 values are reserved (R75). -/

namespace Sys2Proof

/-- Every instruction is well formed: no constructor carries a field a check could refuse (R74). -/
def Instr.wellFormed : Instr → Bool
  | .subw | .kexp | .enc | .dec | .pad | .hinit | .hblk | .hdig | .hash | .hash4 => true

/-- The check on `unit = c[7:4]`: values 4 to 15 select nothing (R71). -/
def unitAssigned (c : Byte) : Bool := (c.extractLsb' 4 4).toNat ≤ 3

/-- The check on `fn = c[3:0]`: the codes of R73, unit by unit; R75 reserves the others. -/
def functionAssigned (c : Byte) : Bool :=
  match (c.extractLsb' 4 4).toNat, (c.extractLsb' 0 4).toNat with
  | 0, fn => fn == 0
  | 1, fn => fn == 0 || fn == 2 || fn == 3
  | 2, fn => fn ≤ 4
  | 3, fn => fn == 0
  | _, _ => true

/-- A command word is well formed when both fields are assigned (R71, R73, R75). -/
def commandWordWellFormed (c : Byte) : Bool := unitAssigned c && functionAssigned c

end Sys2Proof
end

