-- ==== Sys2Proof/Certificates/Slice0/Obligations.lean ====
section
/-! DEFINITION. The statements for the provers, from the numbered rules of spec/. Each docstring names the rule. The words
the statements use (`Claims`) are written from the spec a second time, apart from the model's own functions. -/

namespace Sys2Proof.Claims

open Sys2Proof.Machine

/-- `rotateLeft(x, n)` (00_scope.md R14). -/
def rot (x : Word) (n : Nat) : Word := x.rotateLeft n

/-- Four bytes packed, first byte most significant (00_scope.md R15). -/
def packed (b0 b1 b2 b3 : Byte) : Word := (b0 ++ b1 ++ b2 ++ b3 : BitVec 32)

/-- `word_be(s, i)` (00_scope.md R15). -/
def wordOf {n : Nat} (x : Vector Byte n) (i : Nat) : Word :=
  packed (x.toList.getD (4 * i) 0) (x.toList.getD (4 * i + 1) 0) (x.toList.getD (4 * i + 2) 0)
    (x.toList.getD (4 * i + 3) 0)

/-- Byte `t` of a word, `t = 0` the most significant (20_memory.md R51). -/
def byteOfWord (w : Word) (t : Nat) : Byte := w.extractLsb' (24 - 8 * t) 8

/-- `SubWord` (40_substitution.md R91): each byte substituted in its place. -/
def substituted (w : Word) : Word :=
  (Config.SBOX (w.extractLsb' 24 8) ++ Config.SBOX (w.extractLsb' 16 8) ++ Config.SBOX (w.extractLsb' 8 8)
    ++ Config.SBOX (w.extractLsb' 0 8) : BitVec 32)

/-- `L'` (41_key_schedule.md R101). -/
def keyTransform (x : Word) : Word := x ^^^ rot x 13 ^^^ rot x 23

/-- `L` (42_round_function.md R110). -/
def roundTransform (x : Word) : Word := x ^^^ rot x 2 ^^^ rot x 10 ^^^ rot x 18 ^^^ rot x 24

/-- Every element of the register is written, and element `i` holds `x[i]`. -/
def Holds {α : Type} {n : Nat} (r : Vector (Slot α) n) (x : Vector α n) : Prop :=
  ∀ i (h : i < n), r[i] = .written x[i]

/-- Some element of the register is unwritten. -/
def SomeUnwritten {α : Type} {n : Nat} (r : Vector (Slot α) n) : Prop := ∃ i, ∃ h : i < n, r[i] = .unwritten

/-- The first `bs.length` bytes of the buffer are written and are `bs`. -/
def HoldsMessage (m : Memory) (bs : List Byte) : Prop :=
  ∀ a < bs.length, m.read a = .written (bs.getD a 0)

/-- The least multiple of 64 that is at least `L + 9` (43_hash_padding.md R126). -/
def paddedLength (L : Nat) : Nat := 64 * ((L + 8) / 64 + 1)

/-- Byte `a` of the padded message, `a` below its length (43_hash_padding.md R129): the message, 0x80, zeros, the bit
length big-endian in the last 8 bytes. -/
def paddedByte (m : List Byte) (a : Nat) : Byte :=
  if a < m.length then m.getD a 0
  else if a = m.length then 0x80
  else if a + 8 < paddedLength m.length then 0
  else BitVec.ofNat 8 (8 * m.length / 256 ^ (paddedLength m.length - 1 - a))

/-- Block `n` of the padded message. -/
def paddedBlock (m : List Byte) (n : Nat) : Vector Byte 64 := Vector.ofFn fun i => paddedByte m (64 * n + i.val)

/-- The outcomes agree: both go on with the same `f`, or both are refused for the same reason. -/
def SameOutcome {β : Type} (f : State → β) : Result → Result → Prop
  | .next t, .next t' => f t = f t'
  | .refused r, .refused r' => r = r'
  | .fault x, .fault x' => x = x'
  | _, _ => False

/-- `k` steps of the machine, stopping at the first fault. -/
def stepTimes : Nat → State → Result
  | 0, s => .next s
  | k + 1, s =>
    match step s with
    | .next t => stepTimes k t
    | .fault f => .fault f
    | .refused r => .refused r

/-- The reserved command words as R75 lists them. -/
def reservedCode (c : Nat) : Prop :=
  (0x01 ≤ c ∧ c ≤ 0x0f) ∨ c = 0x11 ∨ (0x14 ≤ c ∧ c ≤ 0x1f) ∨ (0x25 ≤ c ∧ c ≤ 0x2f) ∨ (0x31 ≤ c ∧ c ≤ 0xff)

/-- A buffer byte lies inside its buffer; register elements always exist (20_memory.md R50). -/
def ByteExists (s : State) (e : ByteElem) : Prop := ∀ S a, e = .buf S a → a < s.bufferSize S

/-- Nothing the host can read and no parameter differs, but for what `but` names. -/
def SameElements (s t : State) (but : Elem → Prop) : Prop :=
  (∀ e, ¬but (.byte e) → t.byteAt e = s.byteAt e) ∧ (∀ e, ¬but (.word e) → t.wordAt e = s.wordAt e) ∧
    (∀ e, ¬but (.len e) → t.lenAt e = s.lenAt e) ∧ t.msgMax = s.msgMax ∧ t.refusal = s.refusal

end Sys2Proof.Claims

open Sys2Proof Sys2Proof.Machine Sys2Proof.Claims

/-! ### Encoding -/

/-- R73: "A command word selects a command if and only if it equals the code in this table". -/
def Obligations.CommandWordsAreTheTenCodes : Prop :=
  ∀ (c : Byte) (i : Instr), decode c = .ok i ↔
    (c = 0x00 ∧ i = .subw) ∨ (c = 0x10 ∧ i = .kexp) ∨ (c = 0x12 ∧ i = .enc) ∨ (c = 0x13 ∧ i = .dec) ∨
    (c = 0x20 ∧ i = .pad) ∨ (c = 0x21 ∧ i = .hinit) ∨ (c = 0x22 ∧ i = .hblk) ∨ (c = 0x23 ∧ i = .hdig) ∨
    (c = 0x24 ∧ i = .hash) ∨ (c = 0x30 ∧ i = .hash4)

/-- R75, R177: the 246 reserved values, and only they, are refused with IllegalCommand, by every state. -/
def Obligations.ReservedCodesAreIllegal : Prop :=
  ∀ (c : Byte) (s : State), issue c s = .refused .illegalCommand ↔ reservedCode c.toNat

/-- R70, R77: a stream of command bytes is the encoding of a list of commands exactly when the decoder reads that list
from it: no bit of an encoding is dropped and no two streams mean the same. -/
def Obligations.StreamDecodesToWhatEncodesIt : Prop :=
  ∀ (bs : List Byte) (is : List Instr),
    decodeStream bs = .ok is ↔ (is.all Instr.wellFormed = true ∧ bs = encodeStream is)

/-- R76 and R75: the word check refuses exactly the words the decoder refuses. -/
def Obligations.WordCheckAgreesWithDecoder : Prop :=
  ∀ c : Byte, commandWordWellFormed c = true ↔ ∃ i, decode c = .ok i

/-! ### Steps -/

/-- R38, R57: a write to CMD of a command's code is one step that runs the command; when it is refused the step goes on
with the mark set (R172, R181). The word the host places with withFetchWord is run by the very next step. -/
def Obligations.StepRunsTheDecodedCommand : Prop :=
  (∀ (s : State) (c : Byte) (rest : List HostAction) (i : Instr), s.script = .cmd c :: rest → decode c = .ok i →
    step s = match exec i { s with script := rest } with
      | .next t => .next t
      | .refused r => .next ({ s with script := rest }.markRefused r)
      | .fault f => .fault f) ∧
  (∀ (s : State) (w : Nat) (i : Instr), decodeTableWord 8 w = some i →
    step (s.withFetchWord 8 w) = match exec i s with
      | .next t => .next t
      | .refused r => .next (s.markRefused r)
      | .fault f => .fault f)

/-- R172, R181: after a refused command, reserved code or not, the state is the one before it, with the sticky mark set;
a mark already set keeps its reason (the model's choice, log 5). -/
def Obligations.RefusedCommandOnlySetsTheMark : Prop :=
  ∀ (s : State) (c : Byte) (rest : List HostAction) (r : Refusal), s.script = .cmd c :: rest →
    issue c { s with script := rest } = .refused r →
    ∃ t, step s = .next t ∧ t = { s with script := rest, refusal := some (s.refusal.getD r) }

/-- R186, R203: with no host action to come the block is idle and holds its registers and buffers. -/
def Obligations.NoActionLeavesTheBlockIdle : Prop := ∀ s : State, s.script = [] → step s = .next s

/-! ### The Substitution Engine -/

/-- R94: SUBW writes SW_OUT <- SubWord(SW_IN) and nothing else, and is refused when SW_IN is unwritten. -/
def Obligations.SubwSubstitutesEachByte : Prop :=
  decode 0x00 = .ok .subw ∧
  ∀ s : State, (∀ w, s.swIn = .written w → exec .subw s = .next { s with swOut := .written (substituted w) }) ∧
    (s.swIn = .unwritten → exec .subw s = .refused .unwrittenOperand)

/-- R90: "With the default values the table is a bijection": its values are the ones of log 10, which the spec marks as
general knowledge. -/
def Obligations.SubstitutionTableIsABijection : Prop :=
  (∀ b c : Byte, Config.SBOX b = Config.SBOX c → b = c) ∧ ∀ c : Byte, ∃ b : Byte, Config.SBOX b = c

/-- R92: the four-table form computes SubWord for every word, and the four terms may be joined by or, xor or addition. -/
def Obligations.TablesComputeSubWord : Prop :=
  ∀ w : Word, subWordT w = substituted w ∧ subWord w = substituted w ∧
    Config.T 3 (w.extractLsb' 24 8) ^^^ Config.T 2 (w.extractLsb' 16 8) ^^^ Config.T 1 (w.extractLsb' 8 8)
      ^^^ Config.T 0 (w.extractLsb' 0 8) = substituted w ∧
    Config.T 3 (w.extractLsb' 24 8) + Config.T 2 (w.extractLsb' 16 8) + Config.T 1 (w.extractLsb' 8 8)
      + Config.T 0 (w.extractLsb' 0 8) = substituted w

/-! ### The block cipher -/

/-- R100 to R104: KEXP writes the 32 round keys of the recurrence of R103, all of RK, and nothing else; it is refused
when a key byte is unwritten. -/
def Obligations.KexpWritesTheRoundKeys : Prop :=
  decode 0x10 = .ok .kexp ∧
  ∀ s : State,
    (∀ key : Vector Byte 16, Holds s.key key → ∃ K : Nat → Word,
      (∀ i < 4, K i = wordOf key i ^^^ Config.FK i) ∧
      (∀ i < 32, K (i + 4) =
        K i ^^^ keyTransform (substituted (K (i + 1) ^^^ K (i + 2) ^^^ K (i + 3) ^^^ Config.CK i))) ∧
      exec .kexp s = .next { s with rk := Vector.ofFn fun i => .written (K (i.val + 4)) }) ∧
    (SomeUnwritten s.key → exec .kexp s = .refused .unwrittenOperand)

/-- R113 to R115: ENC writes the block of the recurrence of R113 with the round keys in forward order, and nothing else;
it is refused when a byte of BLK_IN or a word of RK is unwritten. -/
def Obligations.EncEncryptsTheBlock : Prop :=
  decode 0x12 = .ok .enc ∧
  ∀ s : State,
    (∀ (blk : Vector Byte 16) (rk : Vector Word 32), Holds s.blkIn blk → Holds s.rk rk → ∃ X : Nat → Word,
      (∀ i < 4, X i = wordOf blk i) ∧
      (∀ r : Fin 32, X (r.val + 4) =
        X r.val ^^^ roundTransform (substituted (X (r.val + 1) ^^^ X (r.val + 2) ^^^ X (r.val + 3) ^^^ rk[r]))) ∧
      exec .enc s = .next { s with
        blkOut := Vector.ofFn fun i => .written (byteOfWord (X (35 - i.val / 4)) (i.val % 4)) }) ∧
    (SomeUnwritten s.blkIn ∨ SomeUnwritten s.rk → exec .enc s = .refused .unwrittenOperand)

/-- R113, R114, R116: DEC is the same with the round keys in reverse order. -/
def Obligations.DecDecryptsTheBlock : Prop :=
  decode 0x13 = .ok .dec ∧
  ∀ s : State,
    (∀ (blk : Vector Byte 16) (rk : Vector Word 32), Holds s.blkIn blk → Holds s.rk rk → ∃ X : Nat → Word,
      (∀ i < 4, X i = wordOf blk i) ∧
      (∀ r : Fin 32, X (r.val + 4) =
        X r.val ^^^ roundTransform
          (substituted (X (r.val + 1) ^^^ X (r.val + 2) ^^^ X (r.val + 3) ^^^ rk[31 - r.val]))) ∧
      exec .dec s = .next { s with
        blkOut := Vector.ofFn fun i => .written (byteOfWord (X (35 - i.val / 4)) (i.val % 4)) }) ∧
    (SomeUnwritten s.blkIn ∨ SomeUnwritten s.rk → exec .dec s = .refused .unwrittenOperand)

/-- R116: DEC under round keys `rk` is ENC under the same keys in reverse order. -/
def Obligations.DecIsEncUnderReversedKeys : Prop :=
  ∀ (s : State) (blk : Vector Byte 16) (rk : Vector Word 32), Holds s.blkIn blk → Holds s.rk rk →
    ∃ t u : State, exec .dec s = .next t ∧
      exec .enc { s with rk := Vector.ofFn fun i => .written rk[31 - i.val] } = .next u ∧ t.blkOut = u.blkOut

/-- R117: under any 32 round keys, DEC of what ENC left gives the block back, and ENC of what DEC left too. -/
def Obligations.DecryptionInvertsEncryption : Prop :=
  ∀ (s : State) (blk : Vector Byte 16) (rk : Vector Word 32), Holds s.blkIn blk → Holds s.rk rk →
    (∃ t u : State, exec .enc s = .next t ∧ exec .dec { t with blkIn := t.blkOut } = .next u ∧ u.blkOut = s.blkIn) ∧
    (∃ t u : State, exec .dec s = .next t ∧ exec .enc { t with blkIn := t.blkOut } = .next u ∧ u.blkOut = s.blkIn)

/-- R111: one round is a bijection on windows for every round key, with the inverse the rule gives. -/
def Obligations.CipherRoundIsABijection : Prop :=
  ∀ (k y0 y1 y2 y3 : Word) (X : Window),
    cipherRound ⟨y3 ^^^ roundTransform (substituted (y0 ^^^ y1 ^^^ y2 ^^^ k)), y0, y1, y2⟩ k = ⟨y0, y1, y2, y3⟩ ∧
    (cipherRound X k = ⟨y0, y1, y2, y3⟩ →
      X = ⟨y3 ^^^ roundTransform (substituted (y0 ^^^ y1 ^^^ y2 ^^^ k)), y0, y1, y2⟩)

/-- R101, R110, R135: the four transforms are the rotations the rules give, linear over xor, and map 0 to 0. -/
def Obligations.TransformsAreLinear : Prop :=
  ∀ x y : Word,
    (lPrime x = keyTransform x ∧ lRound x = roundTransform x ∧
      p0 x = x ^^^ rot x 9 ^^^ rot x 17 ∧ p1 x = x ^^^ rot x 15 ^^^ rot x 23) ∧
    (lPrime (x ^^^ y) = lPrime x ^^^ lPrime y ∧ lRound (x ^^^ y) = lRound x ^^^ lRound y ∧
      p0 (x ^^^ y) = p0 x ^^^ p0 y ∧ p1 (x ^^^ y) = p1 x ^^^ p1 y) ∧
    (lPrime 0 = 0 ∧ lRound 0 = 0 ∧ p0 0 = 0 ∧ p1 0 = 0)

/-! ### Padding -/

/-- R126: the padded length is the least multiple of 64 that is at least L + 9; it grows with L. -/
def Obligations.PaddedLengthIsLeastMultiple : Prop :=
  ∀ L : Nat, padlen L = L + 1 + padzeros L + 8 ∧ padlen L = 64 * ((L + 8) / 64 + 1) ∧ padlen L % 64 = 0 ∧
    L + 9 ≤ padlen L ∧ padlen L ≤ L + 72 ∧
    (∀ n, n % 64 = 0 → L + 9 ≤ n → padlen L ≤ n) ∧ (∀ M, L ≤ M → padlen L ≤ padlen M) ∧
    nblocks L = padlen L / 64 ∧ nblocks L = (L + 8) / 64 + 1 ∧ 1 ≤ nblocks L ∧
    padzeros L < 64 ∧ (L + 1 + padzeros L) % 64 = 56

/-- R127 to R129: PAD writes PMSG[0 .. padlen(L)-1] and PLEN; every byte of PMSG beyond keeps what it held, and nothing
else changes. -/
def Obligations.PadWritesThePaddedMessage : Prop :=
  ∀ (s : State) (L : Len) (m : List Byte), s.mlen = .written L → L.toNat ≤ s.msgMax.val → m.length = L.toNat →
    HoldsMessage s.msg m →
    ∃ pm : Memory,
      exec .pad s = .next { s with pmsg := pm, plen := .written (BitVec.ofNat 64 (paddedLength L.toNat)) } ∧
      (∀ a < paddedLength L.toNat, pm.read a = .written (paddedByte m a)) ∧
      (∀ a, paddedLength L.toNat ≤ a → pm.read a = s.pmsg.read a)

/-- R129: two different messages of a length in range have different padded messages. -/
def Obligations.PaddingIsInjective : Prop :=
  ∀ m m' : List Byte, m.length ≤ 2 ^ 61 - 1 → m'.length ≤ 2 ^ 61 - 1 → pad m = pad m' → m = m'

/-! ### Scalar compression -/

/-- R136, R137: bit by bit, FF is parity then majority, GG is parity then the choice by its first argument. -/
def Obligations.BooleanFunctionsAreBitwise : Prop :=
  ∀ (j : Nat) (x y z : Word) (b : Nat), b < 32 →
    (j ≤ 15 → (ff j x y z).getLsbD b = ((x.getLsbD b ^^ y.getLsbD b) ^^ z.getLsbD b) ∧
      (gg j x y z).getLsbD b = ((x.getLsbD b ^^ y.getLsbD b) ^^ z.getLsbD b)) ∧
    (16 ≤ j → ((ff j x y z).getLsbD b = true ↔
        2 ≤ (x.getLsbD b).toNat + (y.getLsbD b).toNat + (z.getLsbD b).toNat) ∧
      (gg j x y z).getLsbD b = if x.getLsbD b then y.getLsbD b else z.getLsbD b)

/-- R145: HINIT loads IV in every state, is never refused, and writes nothing else. -/
def Obligations.HinitLoadsTheInitialValue : Prop :=
  decode 0x21 = .ok .hinit ∧
  ∀ s : State, exec .hinit s = .next { s with v := Vector.ofFn fun i => .written Config.IV[i] }

/-- R139 to R142, R146: HBLK folds HB into V: the expansion, the derived words, 64 rounds from V, the feedback by xor;
it writes V and nothing else, and is refused when a word of V or a byte of HB is unwritten. The formulas of FF and GG, with
the selector of the choice, are those the spec marks as general knowledge (R136, R137; log 10). -/
def Obligations.HblkFoldsOneBlock : Prop :=
  decode 0x22 = .ok .hblk ∧
  ∀ s : State,
    (∀ (v : Vector Word 8) (blk : Vector Byte 64), Holds s.v v → Holds s.hb blk →
      ∃ W A B C D E F G H : Nat → Word,
        (∀ i < 16, W i = wordOf blk i) ∧
        (∀ j, 16 ≤ j → j < 68 → W j =
          (let x := W (j - 16) ^^^ W (j - 9) ^^^ rot (W (j - 3)) 15
           x ^^^ rot x 15 ^^^ rot x 23) ^^^ rot (W (j - 13)) 7 ^^^ W (j - 6)) ∧
        (A 0 = v[0] ∧ B 0 = v[1] ∧ C 0 = v[2] ∧ D 0 = v[3] ∧ E 0 = v[4] ∧ F 0 = v[5] ∧ G 0 = v[6] ∧ H 0 = v[7]) ∧
        (∀ j < 64,
          let T := rot (if j < 16 then Config.TJ_LO else Config.TJ_HI) (j % 32)
          let SS1 := rot (rot (A j) 12 + E j + T) 7
          let SS2 := SS1 ^^^ rot (A j) 12
          let FF := if j < 16 then A j ^^^ B j ^^^ C j else (A j &&& B j) ||| (A j &&& C j) ||| (B j &&& C j)
          let GG := if j < 16 then E j ^^^ F j ^^^ G j else (E j &&& F j) ||| (~~~(E j) &&& G j)
          let TT1 := FF + D j + SS2 + (W j ^^^ W (j + 4))
          let TT2 := GG + H j + SS1 + W j
          D (j + 1) = C j ∧ C (j + 1) = rot (B j) 9 ∧ B (j + 1) = A j ∧ A (j + 1) = TT1 ∧
          H (j + 1) = G j ∧ G (j + 1) = rot (F j) 19 ∧ F (j + 1) = E j ∧
          E (j + 1) = TT2 ^^^ rot TT2 9 ^^^ rot TT2 17) ∧
        exec .hblk s = .next { s with
          v := #v[.written (v[0] ^^^ A 64), .written (v[1] ^^^ B 64), .written (v[2] ^^^ C 64),
                  .written (v[3] ^^^ D 64), .written (v[4] ^^^ E 64), .written (v[5] ^^^ F 64),
                  .written (v[6] ^^^ G 64), .written (v[7] ^^^ H 64)] }) ∧
    (SomeUnwritten s.v ∨ SomeUnwritten s.hb → exec .hblk s = .refused .unwrittenOperand)

/-- R143, R147: HDIG writes DIG: byte `4i + t` is byte `t` of `V[i]`; nothing else changes; refused when a word of V is
unwritten. -/
def Obligations.HdigSerialisesTheState : Prop :=
  decode 0x23 = .ok .hdig ∧
  ∀ s : State,
    (∀ v : Vector Word 8, Holds s.v v →
      exec .hdig s = .next { s with
        dig := Vector.ofFn fun i => .written (byteOfWord (v.toList.getD (i.val / 4) 0) (i.val % 4)) }) ∧
    (SomeUnwritten s.v → exec .hdig s = .refused .unwrittenOperand)

/-- R144, R148: HASH starts from IV, folds the blocks of the padded message in order, each exactly as HBLK folds it, and
writes the digest of the last state into DIG and nothing else. -/
def Obligations.HashFoldsThePaddedMessage : Prop :=
  ∀ (s : State) (L : Len) (m : List Byte), s.mlen = .written L → L.toNat ≤ s.msgMax.val → m.length = L.toNat →
    HoldsMessage s.msg m →
    ∃ V : Nat → Vector Word 8,
      V 0 = Config.IV ∧
      (∀ n < paddedLength L.toNat / 64, ∀ u : State, Holds u.v (V n) → Holds u.hb (paddedBlock m n) →
        exec .hblk u = .next { u with v := Vector.ofFn fun i => .written (V (n + 1))[i] }) ∧
      exec .hash s = .next { s with
        dig := Vector.ofFn fun i =>
          .written (byteOfWord ((V (paddedLength L.toNat / 64)).toList.getD (i.val / 4) 0) (i.val % 4)) }

/-- R150: PAD, HINIT, then for every block the host's copy of it into HB and HBLK, then HDIG: run from any state whose
MSG and MLEN hold a message in range and whose refusal mark is clear (R172, log 4), the sequence is never refused, which a
mark still clear at the end says, and leaves in DIG what HASH leaves there. -/
def Obligations.StreamingEqualsOneShot : Prop :=
  ∀ (s : State) (L : Len) (m : List Byte), s.mlen = .written L → L.toNat ≤ s.msgMax.val → m.length = L.toNat →
    HoldsMessage s.msg m → s.refusal = none →
    s.script = Script.cmd .pad ++ Script.cmd .hinit
      ++ ((List.range (paddedLength L.toNat / 64)).flatMap fun n => Script.cpyHb (64 * n) ++ Script.cmd .hblk)
      ++ Script.cmd .hdig →
    ∃ t u : State, stepTimes (65 * (paddedLength L.toNat / 64) + 3) s = .next t ∧ t.script = [] ∧
      t.refusal = none ∧ exec .hash s = .next u ∧ t.dig = u.dig

/-! ### The 4-lane engine -/

/-- R162: the wide compression function is, lane by lane, the scalar one. -/
def Obligations.WideCompressionIsLaneWise : Prop :=
  ∀ (vw : Vector Wide 8) (b : Vector (Vector Byte 64) 4) (k : Fin 4),
    laneState (cf4 vw b) k = cf (laneState vw k) b[k]

/-- R164, R165: for four messages of one length in range, HASH4 writes DIG4 and nothing else, and DIG4[k] is what HASH
writes into DIG when MSG and MLEN hold the message of lane k. -/
def Obligations.Hash4GivesFourScalarDigests : Prop :=
  ∀ (s : State) (L : Len) (m : Vector (List Byte) 4), (∀ k : Fin 4, s.ml4[k] = .written L) → L.toNat ≤ s.msgMax.val →
    (∀ k : Fin 4, m[k].length = L.toNat ∧ HoldsMessage s.msg4[k] m[k]) →
    ∃ D : Vector (Vector Byte 32) 4,
      exec .hash4 s = .next { s with dig4 := Vector.ofFn fun k => Vector.ofFn fun i => .written D[k][i] } ∧
      ∀ k : Fin 4, exec .hash { s with mlen := .written L, msg := s.msg4[k] } =
        .next { s with mlen := .written L, msg := s.msg4[k], dig := Vector.ofFn fun i => .written D[k][i] }

/-- R163: messages moved between the lanes move their digests with them and change nothing in them (any map of lanes to
lanes, so every permutation). -/
def Obligations.LanesAreIsolated : Prop :=
  ∀ (s : State) (L : Len) (m : Vector (List Byte) 4) (σ : Fin 4 → Fin 4),
    (∀ k : Fin 4, s.ml4[k] = .written L) → L.toNat ≤ s.msgMax.val →
    (∀ k : Fin 4, m[k].length = L.toNat ∧ HoldsMessage s.msg4[k] m[k]) →
    ∃ t u : State, exec .hash4 s = .next t ∧
      exec .hash4 { s with msg4 := Vector.ofFn fun k => s.msg4[σ k] } = .next u ∧
      ∀ k : Fin 4, u.dig4[k] = t.dig4[σ k]

/-! ### Frames and purity -/

/-- R44, the frame rule: what an accepted command leaves unchanged, for all ten commands. PAD stores at the offsets below
padlen(MLEN) of PMSG; every other byte of every buffer reads as before, and the other nine store no byte at all. -/
def Obligations.CommandsChangeOnlyTheirWriteColumns : Prop :=
  ∀ s t : State,
    (exec .subw s = .next t → t = { s with swOut := t.swOut }) ∧
    (exec .kexp s = .next t → t = { s with rk := t.rk }) ∧
    (exec .enc s = .next t → t = { s with blkOut := t.blkOut }) ∧
    (exec .dec s = .next t → t = { s with blkOut := t.blkOut }) ∧
    (exec .pad s = .next t → t = { s with pmsg := t.pmsg, plen := t.plen } ∧
      ∃ L : Len, s.mlen = .written L ∧ ∀ a, padlen L.toNat ≤ a → t.pmsg.read a = s.pmsg.read a) ∧
    (exec .hinit s = .next t → t = { s with v := t.v }) ∧
    (exec .hblk s = .next t → t = { s with v := t.v }) ∧
    (exec .hdig s = .next t → t = { s with dig := t.dig }) ∧
    (exec .hash s = .next t → t = { s with dig := t.dig }) ∧
    (exec .hash4 s = .next t → t = { s with dig4 := t.dig4 })

/-- R44, R118, R149: what a command answers depends on its read columns only: two states that agree there, whatever else
they hold, give the same results and the same refusals. MSG and MSG4_k matter only below the length. -/
def Obligations.ResultsDependOnlyOnOperands : Prop :=
  ∀ s s' : State, s.msgMax = s'.msgMax →
    (s.swIn = s'.swIn → SameOutcome (fun t => t.swOut) (exec .subw s) (exec .subw s')) ∧
    (s.key = s'.key → SameOutcome (fun t => t.rk) (exec .kexp s) (exec .kexp s')) ∧
    (s.blkIn = s'.blkIn → s.rk = s'.rk →
      SameOutcome (fun t => t.blkOut) (exec .enc s) (exec .enc s') ∧
      SameOutcome (fun t => t.blkOut) (exec .dec s) (exec .dec s')) ∧
    (SameOutcome (fun t => t.v) (exec .hinit s) (exec .hinit s')) ∧
    (s.v = s'.v → s.hb = s'.hb → SameOutcome (fun t => t.v) (exec .hblk s) (exec .hblk s')) ∧
    (s.v = s'.v → SameOutcome (fun t => t.dig) (exec .hdig s) (exec .hdig s')) ∧
    (s.mlen = s'.mlen → (∀ L : Len, s.mlen = .written L → ∀ a < L.toNat, s.msg.read a = s'.msg.read a) →
      SameOutcome (fun t => t.dig) (exec .hash s) (exec .hash s') ∧
      SameOutcome (fun t => t.plen) (exec .pad s) (exec .pad s') ∧
      (∀ (L : Len) (a : Nat), s.mlen = .written L → a < padlen L.toNat →
        SameOutcome (fun t => t.pmsg.read a) (exec .pad s) (exec .pad s'))) ∧
    (s.ml4 = s'.ml4 →
      (∀ (k : Fin 4) (L : Len), s.ml4[k] = .written L → ∀ a < L.toNat, (s.msg4[k]).read a = (s'.msg4[k]).read a) →
      SameOutcome (fun t => t.dig4) (exec .hash4 s) (exec .hash4 s'))

/-- R29 to R34: over every step, an operand register changes only by its named writers: KEY, BLK_IN, HB, SW_IN, MLEN,
ML4 and the message buffers only by the host or RESET; RK also by KEXP, V also by HINIT and HBLK. -/
def Obligations.OperandsChangeOnlyByTheirWriters : Prop :=
  ∀ (s t : State) (a : HostAction) (rest : List HostAction), s.script = a :: rest → step s = .next t → a ≠ .reset →
    (t.key ≠ s.key → ∃ i, (∃ b, a = .writeByte (.key i) b) ∨ ∃ src, a = .copyByte (.key i) src) ∧
    (t.blkIn ≠ s.blkIn → ∃ i, (∃ b, a = .writeByte (.blkIn i) b) ∨ ∃ src, a = .copyByte (.blkIn i) src) ∧
    (t.hb ≠ s.hb → ∃ i, (∃ b, a = .writeByte (.hb i) b) ∨ ∃ src, a = .copyByte (.hb i) src) ∧
    (t.swIn ≠ s.swIn → ∃ w, a = .writeWord .swIn w) ∧
    (t.mlen ≠ s.mlen → ∃ l, a = .writeLen .mlen l) ∧
    (t.ml4 ≠ s.ml4 → ∃ k l, a = .writeLen (.ml4 k) l) ∧
    (t.msg ≠ s.msg → ∃ o, (∃ b, a = .writeByte (.buf .msg o) b) ∨ ∃ src, a = .copyByte (.buf .msg o) src) ∧
    (t.msg4 ≠ s.msg4 →
      ∃ k o, (∃ b, a = .writeByte (.buf (.msg4 k) o) b) ∨ ∃ src, a = .copyByte (.buf (.msg4 k) o) src) ∧
    (t.rk ≠ s.rk → a = .cmd 0x10 ∨ ∃ i w, a = .writeWord (.rk i) w) ∧
    (t.v ≠ s.v → a = .cmd 0x21 ∨ a = .cmd 0x22 ∨ ∃ i w, a = .writeWord (.v i) w)

/-! ### Refusals -/

/-- R170, R173: no command faults; a refused command gives one of the reasons listed for it, and HINIT is never
refused. -/
def Obligations.RefusalReasonsAreClosed : Prop :=
  ∀ s : State,
    (∀ (i : Instr) (f : Fault), exec i s ≠ .fault f) ∧
    (∀ r, exec .hinit s ≠ .refused r) ∧
    (∀ (i : Instr) (r : Refusal), i ∈ [Instr.subw, .kexp, .enc, .dec, .hblk, .hdig] → exec i s = .refused r →
      r = .unwrittenOperand) ∧
    (∀ (i : Instr) (r : Refusal), i ∈ [Instr.pad, .hash] → exec i s = .refused r →
      r = .unwrittenOperand ∨ r = .lengthOutOfRange) ∧
    (∀ r, exec .hash4 s = .refused r → r = .unwrittenOperand ∨ r = .lengthOutOfRange ∨ r = .laneLengthMismatch) ∧
    (∀ (c : Byte) (r : Refusal), issue c s = .refused r →
      r = .illegalCommand ∨ r = .unwrittenOperand ∨ r = .lengthOutOfRange ∨ r = .laneLengthMismatch)

/-- R174, R178: exactly when each command is refused for an unwritten operand: length registers first, message bytes
only once the lengths have passed, and never an element the command does not read. -/
def Obligations.UnwrittenOperandIsRefusedExactly : Prop :=
  ∀ s : State,
    (exec .subw s = .refused .unwrittenOperand ↔ s.swIn = .unwritten) ∧
    (exec .kexp s = .refused .unwrittenOperand ↔ SomeUnwritten s.key) ∧
    (exec .enc s = .refused .unwrittenOperand ↔ SomeUnwritten s.blkIn ∨ SomeUnwritten s.rk) ∧
    (exec .dec s = .refused .unwrittenOperand ↔ SomeUnwritten s.blkIn ∨ SomeUnwritten s.rk) ∧
    (exec .hblk s = .refused .unwrittenOperand ↔ SomeUnwritten s.v ∨ SomeUnwritten s.hb) ∧
    (exec .hdig s = .refused .unwrittenOperand ↔ SomeUnwritten s.v) ∧
    (∀ i ∈ [Instr.pad, .hash], exec i s = .refused .unwrittenOperand ↔
      s.mlen = .unwritten ∨ ∃ L : Len, s.mlen = .written L ∧ L.toNat ≤ s.msgMax.val ∧
        ∃ a < L.toNat, s.msg.read a = .unwritten) ∧
    (exec .hash4 s = .refused .unwrittenOperand ↔
      SomeUnwritten s.ml4 ∨ ∃ L : Len, (∀ k : Fin 4, s.ml4[k] = .written L) ∧ L.toNat ≤ s.msgMax.val ∧
        ∃ k : Fin 4, ∃ a < L.toNat, (s.msg4[k]).read a = .unwritten)

/-- R175, R178: exactly when a length is out of range: the length registers are all written and one exceeds MSG_MAX or
2^61 - 1; since MSG_MAX is at most 2^61 - 1 the single test against MSG_MAX decides both. -/
def Obligations.LengthOutOfRangeExactly : Prop :=
  ∀ s : State,
    (∀ i ∈ [Instr.pad, .hash], exec i s = .refused .lengthOutOfRange ↔
      ∃ L : Len, s.mlen = .written L ∧ (s.msgMax.val < L.toNat ∨ 2 ^ 61 - 1 < L.toNat)) ∧
    (exec .hash4 s = .refused .lengthOutOfRange ↔
      ∃ L : Vector Len 4, Holds s.ml4 L ∧ ∃ k : Fin 4, s.msgMax.val < L[k].toNat ∨ 2 ^ 61 - 1 < L[k].toNat) ∧
    (∀ L : Len, (s.msgMax.val < L.toNat ∨ 2 ^ 61 - 1 < L.toNat) ↔ s.msgMax.val < L.toNat)

/-- R176, R178: exactly when HASH4 is refused for unequal lanes: four written lengths in range, not all equal. -/
def Obligations.LaneLengthMismatchExactly : Prop :=
  ∀ s : State, exec .hash4 s = .refused .laneLengthMismatch ↔
    ∃ L : Vector Len 4, Holds s.ml4 L ∧ (∀ k : Fin 4, L[k].toNat ≤ s.msgMax.val) ∧
      ¬(L[0] = L[1] ∧ L[1] = L[2] ∧ L[2] = L[3])

/-! ### Reset and the host -/

/-- R191: after RESET every operand register, result register and buffer byte is unwritten, and ENC, DEC, HBLK and HDIG
are refused until their operands have been written; for every MSG_MAX, and with it State.reset. -/
def Obligations.ResetLeavesEverythingUnwritten : Prop :=
  (∀ (m : Fin (2 ^ 61)) (e : Elem), (State.resetWith m).isWritten e = false ∧ (State.resetWith m).refusal = none ∧
    (State.resetWith m).msgMax = m) ∧
  (∀ m : Fin (2 ^ 61), ∀ i ∈ [Instr.enc, .dec, .hblk, .hdig],
    exec i (State.resetWith m) = .refused .unwrittenOperand) ∧
  (∃ m : Fin (2 ^ 61), State.reset = State.resetWith m)

/-- R192: a RESET from any state returns the block to the state after the first; MSG_MAX, a parameter, stays. The mark is
clear (log 6), and what is not the block's (the remaining script, the values read, the place in the free values) stays:
the model's choice, log 6. -/
def Obligations.ResetEventReturnsToReset : Prop :=
  ∀ (s : State) (rest : List HostAction), s.script = .reset :: rest →
    step s = .next { State.resetWith s.msgMax with script := rest, reads := s.reads, freeIndex := s.freeIndex }

/-- R55, R54, R20: a host write stores one element and has no other effect; every register and buffer byte but CMD can be
written, a buffer byte inside its buffer. -/
def Obligations.HostWritesStoreOneElement : Prop :=
  ∀ (s : State) (rest : List HostAction),
    (∀ e b, s.script = .writeByte e b :: rest → ByteExists s e → ∃ t, step s = .next t ∧ t.script = rest ∧
      t.byteAt e = .written b ∧ SameElements s t (fun x => x = .byte e) ∧ t.reads = s.reads ∧
      t.freeIndex = s.freeIndex) ∧
    (∀ e w, s.script = .writeWord e w :: rest → ∃ t, step s = .next t ∧ t.script = rest ∧
      t.wordAt e = .written w ∧ SameElements s t (fun x => x = .word e) ∧ t.reads = s.reads ∧
      t.freeIndex = s.freeIndex) ∧
    (∀ e l, s.script = .writeLen e l :: rest → ∃ t, step s = .next t ∧ t.script = rest ∧
      t.lenAt e = .written l ∧ SameElements s t (fun x => x = .len e) ∧ t.reads = s.reads ∧
      t.freeIndex = s.freeIndex)

/-- R55, R40: a host read changes no register, buffer byte, unwritten mark or refusal mark; a written element returns its
value, an unwritten one a free value that the next such read does not share (log 8). -/
def Obligations.HostReadsChangeNoState : Prop :=
  ∀ (s : State) (rest : List HostAction),
    (∀ e, s.script = .read (.byte e) :: rest → ByteExists s e → ∃ t x, step s = .next t ∧ t.script = rest ∧
      t.reads = .byte x :: s.reads ∧ SameElements s t (fun _ => False) ∧
      (∀ b, s.byteAt e = .written b → x = b ∧ t.freeIndex = s.freeIndex) ∧
      (s.byteAt e = .unwritten → x = Config.freeByte s.freeIndex ∧ t.freeIndex = s.freeIndex + 1)) ∧
    (∀ e, s.script = .read (.word e) :: rest → ∃ t x, step s = .next t ∧ t.script = rest ∧
      t.reads = .word x :: s.reads ∧ SameElements s t (fun _ => False) ∧
      (∀ w, s.wordAt e = .written w → x = w ∧ t.freeIndex = s.freeIndex) ∧
      (s.wordAt e = .unwritten → x = Config.freeWord s.freeIndex ∧ t.freeIndex = s.freeIndex + 1)) ∧
    (∀ e, s.script = .read (.len e) :: rest → ∃ t x, step s = .next t ∧ t.script = rest ∧
      t.reads = .len x :: s.reads ∧ SameElements s t (fun _ => False) ∧
      (∀ l, s.lenAt e = .written l → x = l ∧ t.freeIndex = s.freeIndex) ∧
      (s.lenAt e = .unwritten → x = Config.freeLen s.freeIndex ∧ t.freeIndex = s.freeIndex + 1))

/-- 30_encoding.md R77 (`cpy`) and log 15, the model's choice of one byte a step: a host copy of one byte writes what the
host read of the source returns, and changes no other element. -/
def Obligations.HostCopyMovesOneByte : Prop :=
  ∀ (s : State) (rest : List HostAction) (dst src : ByteElem), s.script = .copyByte dst src :: rest →
    ByteExists s dst → ByteExists s src →
    ∃ t x, step s = .next t ∧ t.script = rest ∧ t.reads = .byte x :: s.reads ∧ t.byteAt dst = .written x ∧
      SameElements s t (fun y => y = .byte dst) ∧ ∀ b, s.byteAt src = .written b → x = b

/-- The model's choice, logs 11 and 12: a host access outside a buffer and a host read of CMD fault by name, and these are
the only faults of the machine: a step that faults had such an access at the head of its script. -/
def Obligations.OnlyImpossibleHostAccessesFault : Prop :=
  (∀ (s : State) (rest : List HostAction) (S : Space) (a : Nat), s.bufferSize S ≤ a →
    ((∃ b, s.script = .writeByte (.buf S a) b :: rest) ∨ s.script = .read (.byte (.buf S a)) :: rest) →
    step s = .fault (.noSuchByte S a)) ∧
  (∀ (s : State) (rest : List HostAction) (dst src : ByteElem), s.script = .copyByte dst src :: rest →
    (∀ S a, src = .buf S a → s.bufferSize S ≤ a → step s = .fault (.noSuchByte S a)) ∧
    (∀ S a, dst = .buf S a → s.bufferSize S ≤ a → ByteExists s src → step s = .fault (.noSuchByte S a))) ∧
  (∀ (s : State) (rest : List HostAction), s.script = .readCmd :: rest → step s = .fault .commandRegisterRead) ∧
  (∀ (s : State) (f : Fault), step s = .fault f →
    (∃ S a, f = .noSuchByte S a ∧ s.bufferSize S ≤ a ∧
      ((∃ b, s.script.head? = some (.writeByte (.buf S a) b)) ∨ s.script.head? = some (.read (.byte (.buf S a))) ∨
        (∃ dst, s.script.head? = some (.copyByte dst (.buf S a))) ∨
        ∃ src, s.script.head? = some (.copyByte (.buf S a) src) ∧ ByteExists s src)) ∨
    (f = .commandRegisterRead ∧ s.script.head? = some .readCmd)) ∧
  (∀ (s : State) (r : Refusal), step s ≠ .refused r)

/-! ### Whole-machine invariants -/

/-- 20_memory.md R50, R63 and log 13: from every state whose six buffers are canonical and within their sizes, every step
leaves them so; PAD never stores beyond PMSG_MAX. -/
def Obligations.EveryStepKeepsBuffersCanonical : Prop :=
  ∀ s t : State, s.inv → step s = .next t → t.inv

/-- The invariant holds after RESET, for every MSG_MAX, and of `State.reset`. That a buffer is a canonical list is the model's
choice (log 13), and so is the MSG_MAX of `State.reset` (log 9); the spec says that every byte is unwritten (R41, R191). -/
def Obligations.BuffersAreCanonicalAfterReset : Prop := ∀ m : Fin (2 ^ 61), (State.resetWith m).inv ∧ State.reset.inv

/-- R40: "it never becomes unwritten again except by reset": every step but RESET keeps every written element written. -/
def Obligations.WrittenElementsStayWrittenUntilReset : Prop :=
  ∀ (s t : State) (e : Elem), step s = .next t → s.script.head? ≠ some .reset → s.isWritten e = true →
    t.isWritten e = true

/-- R172, R181: the refusal mark is sticky: only RESET clears it (log 6), only a refused command sets it. And R12: MSG_MAX
never changes. -/
def Obligations.RefusalMarkIsSticky : Prop :=
  ∀ s t : State, step s = .next t → t.msgMax = s.msgMax ∧
    (s.script.head? ≠ some .reset → ∀ r, s.refusal = some r → t.refusal = some r) ∧
    (∀ r, s.refusal = none → t.refusal = some r →
      ∃ c rest, s.script = .cmd c :: rest ∧ issue c { s with script := rest } = .refused r)
end

