-- ==== Sys2Proof/Laws/Memory.lean ====
section
/-! SUPPORT. What the buffer operations do, and that each keeps the canonical form. -/

namespace Sys2Proof.Machine

/-! ### Read after write -/

theorem Memory.read_write (m : Memory) (a c : Nat) (x : Byte) :
    Memory.read (Memory.write m a x) c = if c = a then .written x else Memory.read m c := by
  induction m with
  | nil => by_cases h : c = a <;> simp [Memory.write, Memory.read, h]
  | cons p rest ih =>
    obtain ⟨b, w⟩ := p
    simp only [Memory.write]
    split
    · by_cases h : c = a <;> simp [Memory.read, h]
    · split
      · next hab => subst hab; by_cases h : c = a <;> simp [Memory.read, h]
      · next h1 h2 =>
        simp only [Memory.read, ih]
        by_cases hb : c = b
        · have : c ≠ a := by omega
          simp [hb]
          omega
        · simp [hb]

@[simp] theorem Memory.read_write_same (m : Memory) (a : Nat) (x : Byte) :
    Memory.read (Memory.write m a x) a = .written x := by simp [Memory.read_write]

theorem Memory.read_write_other (m : Memory) {a c : Nat} (x : Byte) (h : c ≠ a) :
    Memory.read (Memory.write m a x) c = Memory.read m c := by simp [Memory.read_write, h]

/-- What a range write leaves at each offset. -/
theorem Memory.read_writeBytes (bs : List Byte) : ∀ (m : Memory) (a c : Nat),
    Memory.read (Memory.writeBytes m a bs) c =
      if a ≤ c ∧ c < a + bs.length then .written (bs.getD (c - a) 0) else Memory.read m c := by
  induction bs with
  | nil =>
    intro m a c
    have : ¬(a ≤ c ∧ c < a + ([] : List Byte).length) := by simp
    simp only [Memory.writeBytes, this, if_false]
  | cons b bs ih =>
    intro m a c
    simp only [Memory.writeBytes, ih, Memory.read_write, List.length_cons]
    by_cases hc : c = a
    · subst hc
      have h1 : ¬(c + 1 ≤ c ∧ c < c + 1 + bs.length) := by omega
      have h2 : c ≤ c ∧ c < c + (bs.length + 1) := by omega
      simp only [h1, h2, if_false, if_true, Nat.sub_self, List.getD_cons_zero, and_self]
    · by_cases hr : a + 1 ≤ c ∧ c < a + 1 + bs.length
      · have h2 : a ≤ c ∧ c < a + (bs.length + 1) := by omega
        have h3 : c - a = c - (a + 1) + 1 := by omega
        simp only [hr, h2, if_true, h3, List.getD_cons_succ, and_self]
      · have h2 : ¬(a ≤ c ∧ c < a + (bs.length + 1)) := by omega
        simp only [hr, h2, hc, if_false]

/-- A range read answers exactly when every byte of the range is written, and gives those bytes in order. -/
theorem Memory.readBytes_eq_some (m : Memory) : ∀ (n a : Nat) (bs : List Byte),
    Memory.readBytes m a n = some bs ↔
      bs.length = n ∧ ∀ i < n, Memory.read m (a + i) = .written (bs.getD i 0) := by
  intro n
  induction n with
  | zero =>
    intro a bs
    constructor
    · intro h
      simp only [Memory.readBytes, Option.some.injEq] at h
      subst h
      simp
    · rintro ⟨h, -⟩
      simp [Memory.readBytes, List.length_eq_zero_iff.mp h]
  | succ n ih =>
    intro a bs
    constructor
    · intro h
      simp only [Memory.readBytes] at h
      split at h
      · cases h
      · next b hb =>
        split at h
        · cases h
        · next cs hcs =>
          cases h
          obtain ⟨hl, hr⟩ := (ih (a + 1) cs).mp hcs
          refine ⟨by simp [hl], fun i hi => ?_⟩
          cases i with
          | zero => simpa using hb
          | succ i =>
            have := hr i (by omega)
            rw [show a + (i + 1) = a + 1 + i by omega, this]
            simp
    · rintro ⟨hl, hr⟩
      cases bs with
      | nil => simp at hl
      | cons b cs =>
        have h0 := hr 0 (by omega)
        have ht : Memory.readBytes m (a + 1) n = some cs := by
          refine (ih (a + 1) cs).mpr ⟨by simpa using hl, fun i hi => ?_⟩
          have := hr (i + 1) (by omega)
          rw [show a + 1 + i = a + (i + 1) by omega, this]
          simp
        simp only [Nat.add_zero, List.getD_cons_zero] at h0
        simp only [Memory.readBytes, h0, ht]

/-! ### Canonical form -/

theorem Memory.wf_cons {a : Nat} {x : Byte} {rest : Memory} :
    Memory.wf ((a, x) :: rest) = true ↔ (∀ c ∈ rest.head?, a < c.1) ∧ Memory.wf rest = true := by
  cases rest with
  | nil => simp [Memory.wf]
  | cons c rest => obtain ⟨b, y⟩ := c; simp [Memory.wf]

theorem Memory.head_write (m : Memory) (a : Nat) (x : Byte) :
    ∀ c ∈ (Memory.write m a x).head?, c.1 = a ∨ c ∈ m.head? := by
  cases m with
  | nil => simp [Memory.write]
  | cons p rest =>
    obtain ⟨b, w⟩ := p
    simp only [Memory.write]
    split
    · simp
    · split <;> simp_all

/-- Writing a byte keeps the canonical form. -/
theorem Memory.wf_write {m : Memory} (h : Memory.wf m = true) (a : Nat) (x : Byte) :
    Memory.wf (Memory.write m a x) = true := by
  induction m with
  | nil => simp [Memory.write, Memory.wf]
  | cons p rest ih =>
    obtain ⟨b, w⟩ := p
    obtain ⟨hh, hr⟩ := Memory.wf_cons.mp h
    simp only [Memory.write]
    split
    · next hab => exact Memory.wf_cons.mpr ⟨by simpa using hab, h⟩
    · split
      · next hab => subst hab; exact Memory.wf_cons.mpr ⟨hh, hr⟩
      · next h1 h2 =>
        refine Memory.wf_cons.mpr ⟨fun c hc => ?_, ih hr⟩
        rcases Memory.head_write rest a x c hc with h3 | h3
        · omega
        · exact hh c h3

/-- A range write keeps the canonical form. -/
theorem Memory.wf_writeBytes (bs : List Byte) : ∀ {m : Memory} (a : Nat), Memory.wf m = true →
    Memory.wf (Memory.writeBytes m a bs) = true := by
  induction bs with
  | nil => intro m a h; exact h
  | cons b bs ih => intro m a h; exact ih (a + 1) (Memory.wf_write h a b)

/-- Writing below the size keeps every listed offset below the size. -/
theorem Memory.fits_write {n a : Nat} {m : Memory} (h : Memory.fits n m = true) (ha : a < n) (x : Byte) :
    Memory.fits n (Memory.write m a x) = true := by
  have key : ∀ m : Memory, (∀ c ∈ m, c.1 < n) → ∀ c ∈ Memory.write m a x, c.1 < n := by
    intro m
    induction m with
    | nil => intro _ c hc; simp only [Memory.write, List.mem_singleton] at hc; subst hc; exact ha
    | cons p rest ih =>
      obtain ⟨b, w⟩ := p
      intro hm c hc
      simp only [Memory.write] at hc
      split at hc
      · rcases List.mem_cons.mp hc with rfl | hc
        · exact ha
        · exact hm c hc
      · split at hc
        · rcases List.mem_cons.mp hc with rfl | hc
          · exact ha
          · exact hm c (List.mem_cons_of_mem _ hc)
        · rcases List.mem_cons.mp hc with rfl | hc
          · exact hm _ List.mem_cons_self
          · exact ih (fun c hc => hm c (List.mem_cons_of_mem _ hc)) c hc
  simp only [Memory.fits, List.all_eq_true, decide_eq_true_eq] at h ⊢
  exact key m h

theorem Memory.fits_writeBytes (bs : List Byte) {n : Nat} : ∀ {m : Memory} (a : Nat), Memory.fits n m = true →
    a + bs.length ≤ n → Memory.fits n (Memory.writeBytes m a bs) = true := by
  induction bs with
  | nil => intro m a h _; exact h
  | cons b bs ih =>
    intro m a h hn
    simp only [List.length_cons] at hn
    exact ih (a + 1) (Memory.fits_write h (by omega) b) (by omega)

/-- The memory of `State.reset` is canonical. -/
theorem State.reset_memory_wf (S : Space) : (State.reset.buffer S).wf = true := by
  cases S with
  | msg => rfl
  | pmsg => rfl
  | msg4 k => fin_cases k <;> rfl

end Sys2Proof.Machine
end

