-- ==== Sys2Proof/Laws/Operands.lean ====
section
/-! SUPPORT. What each way of taking an operand can answer. -/

namespace Sys2Proof.Machine

theorem Slot.isWritten_iff {α : Type} {x : Slot α} : x.isWritten = true ↔ ∃ v, x = .written v := by
  cases x <;> simp [Slot.isWritten]

theorem Slot.get?_eq_some {α : Type} {x : Slot α} {v : α} : x.get? = some v ↔ x = .written v := by
  cases x <;> simp [Slot.get?]

theorem Slot.get?_eq_none {α : Type} {x : Slot α} : x.get? = none ↔ x = .unwritten := by
  cases x <;> simp [Slot.get?]

@[simp] theorem getElem_writtenAll {α : Type} {n i : Nat} (x : Vector α n) (h : i < n) :
    (writtenAll x)[i] = .written x[i] := by simp [writtenAll]

theorem all_isWritten_iff {α : Type} {n : Nat} {r : Vector (Slot α) n} :
    r.toList.all Slot.isWritten = true ↔ ∀ i (h : i < n), (r[i]).isWritten = true := by
  simp only [List.all_eq_true, List.mem_iff_getElem]
  constructor
  · intro h i hi
    exact h _ ⟨i, by simpa using hi, by simp⟩
  · rintro h x ⟨i, hi, rfl⟩
    simpa using h i (by simpa using hi)

/-- A whole register read gives `x` exactly when every element is written and element `i` holds `x[i]`. -/
theorem readAll_eq_some {w n : Nat} {r : Vector (Slot (BitVec w)) n} {x : Vector (BitVec w) n} :
    readAll r = some x ↔ ∀ i (h : i < n), r[i] = .written x[i] := by
  unfold readAll
  constructor
  · intro h
    split at h
    · next hall =>
      cases h
      intro i hi
      obtain ⟨v, hv⟩ := Slot.isWritten_iff.mp (all_isWritten_iff.mp hall i hi)
      simp [hv, Slot.getD]
    · cases h
  · intro h
    have hall : r.toList.all Slot.isWritten = true :=
      all_isWritten_iff.mpr fun i hi => by rw [h i hi]; rfl
    rw [if_pos hall]
    congr 1
    ext1 i hi
    simp [h i hi, Slot.getD]

/-- A whole register read gives nothing exactly when some element is unwritten. -/
theorem readAll_eq_none {w n : Nat} {r : Vector (Slot (BitVec w)) n} :
    readAll r = none ↔ ∃ i, ∃ h : i < n, r[i] = .unwritten := by
  unfold readAll
  constructor
  · intro h
    split at h
    · cases h
    · next hall =>
      rw [Bool.not_eq_true, ← Bool.not_eq_true, all_isWritten_iff] at hall
      simp only [not_forall] at hall
      obtain ⟨i, hi, hw⟩ := hall
      exact ⟨i, hi, by cases hr : r[i] <;> simp_all [Slot.isWritten]⟩
  · rintro ⟨i, hi, hr⟩
    have : ¬r.toList.all Slot.isWritten = true := fun h => by
      have := all_isWritten_iff.mp h i hi
      rw [hr] at this
      cases this
    rw [if_neg this]

@[simp] theorem readAll_writtenAll {w n : Nat} (x : Vector (BitVec w) n) : readAll (writtenAll x) = some x :=
  readAll_eq_some.mpr fun _ h => getElem_writtenAll x h

/-- Everything `operand` can answer. -/
theorem operand_cases {α : Type} (o : Option α) (k : α → Result) :
    (o = none ∧ operand o k = .refused .unwrittenOperand) ∨ ∃ x, o = some x ∧ operand o k = k x := by
  cases o with
  | none => exact .inl ⟨rfl, rfl⟩
  | some x => exact .inr ⟨x, rfl, rfl⟩

theorem operand_next {α : Type} {o : Option α} {k : α → Result} {t : State} (h : operand o k = .next t) :
    ∃ x, o = some x ∧ k x = .next t := by
  cases o with
  | none => cases h
  | some x => exact ⟨x, rfl, h⟩

/-- The single test `L > MSG_MAX` decides both bounds, since MSG_MAX is at most 2^61 - 1 (60_exceptions.md R175). -/
theorem outOfRange_iff {s : State} {L : Len} : outOfRange s L = true ↔ s.msgMax.val < L.toNat := by
  have hm : s.msgMax.val < 2 ^ 61 := s.msgMax.isLt
  have hl : Config.lengthLimit = 2 ^ 61 - 1 := rfl
  rw [outOfRange, Bool.or_eq_true, decide_eq_true_eq, decide_eq_true_eq]
  omega

/-- Everything `withMessage` can answer, in the order of the checks. -/
theorem withMessage_cases (s : State) (k : List Byte → Result) :
    (s.mlen = .unwritten ∧ withMessage s k = .refused .unwrittenOperand) ∨
    ∃ L, s.mlen = .written L ∧
      ((s.msgMax.val < L.toNat ∧ withMessage s k = .refused .lengthOutOfRange) ∨
       (L.toNat ≤ s.msgMax.val ∧
        ((s.msg.readBytes 0 L.toNat = none ∧ withMessage s k = .refused .unwrittenOperand) ∨
         ∃ m, s.msg.readBytes 0 L.toNat = some m ∧ withMessage s k = k m))) := by
  unfold withMessage inRange
  cases hm : s.mlen with
  | unwritten => exact .inl ⟨rfl, rfl⟩
  | written L =>
    refine .inr ⟨L, rfl, ?_⟩
    by_cases hr : outOfRange s L = true
    · exact .inl ⟨outOfRange_iff.mp hr, by simp [operand, Slot.get?, hr]⟩
    · refine .inr ⟨by have := mt outOfRange_iff.mpr hr; omega, ?_⟩
      cases hb : s.msg.readBytes 0 L.toNat with
      | none => exact .inl ⟨rfl, by simp [operand, Slot.get?, hr, hb]⟩
      | some m => exact .inr ⟨m, rfl, by simp [operand, Slot.get?, hr, hb]⟩

/-- Everything `withLanes` can answer, in the order of the checks. -/
theorem withLanes_cases (s : State) (k : Vector (List Byte) 4 → Result) :
    (readAll s.ml4 = none ∧ withLanes s k = .refused .unwrittenOperand) ∨
    ∃ L, readAll s.ml4 = some L ∧
      ((L.toList.any (outOfRange s) = true ∧ withLanes s k = .refused .lengthOutOfRange) ∨
       (L.toList.any (outOfRange s) = false ∧
        ((¬(L[0] = L[1] ∧ L[1] = L[2] ∧ L[2] = L[3]) ∧ withLanes s k = .refused .laneLengthMismatch) ∨
         ((L[0] = L[1] ∧ L[1] = L[2] ∧ L[2] = L[3]) ∧
          ((readLanes s L[0].toNat = none ∧ withLanes s k = .refused .unwrittenOperand) ∨
           ∃ m, readLanes s L[0].toNat = some m ∧ withLanes s k = k m))))) := by
  unfold withLanes
  cases hl : readAll s.ml4 with
  | none => exact .inl ⟨rfl, rfl⟩
  | some L =>
    refine .inr ⟨L, rfl, ?_⟩
    simp only [operand]
    cases hr : L.toList.any (outOfRange s) with
    | true => exact .inl ⟨rfl, rfl⟩
    | false =>
      refine .inr ⟨rfl, ?_⟩
      by_cases he : L[0] = L[1] ∧ L[1] = L[2] ∧ L[2] = L[3]
      · refine .inr ⟨he, ?_⟩
        rw [if_neg (by simp), if_neg (not_not.mpr he)]
        cases readLanes s L[0].toNat with
        | none => exact .inl ⟨rfl, rfl⟩
        | some m => exact .inr ⟨m, rfl, rfl⟩
      · exact .inl ⟨he, by rw [if_neg (by simp), if_pos he]⟩

/-- The four lane messages are read exactly when each lane's bytes are. -/
theorem readLanes_eq_some {s : State} {n : Nat} {m : Vector (List Byte) 4} :
    readLanes s n = some m ↔ ∀ k : Fin 4, (s.msg4[k]).readBytes 0 n = some m[k] := by
  unfold readLanes
  constructor
  · intro h
    split at h
    · next m0 m1 m2 m3 h0 h1 h2 h3 =>
      cases h
      intro k
      fin_cases k <;> assumption
    · cases h
  · intro h
    have h0 := h 0; have h1 := h 1; have h2 := h 2; have h3 := h 3
    simp only [Fin.getElem_fin] at h0 h1 h2 h3
    simp only [Fin.val_zero, Fin.val_one, Fin.val_two, show ((3 : Fin 4) : Nat) = 3 from rfl] at h0 h1 h2 h3
    rw [h0, h1, h2, h3]
    refine congrArg some (Vector.ext fun i hi => ?_)
    have : i = 0 ∨ i = 1 ∨ i = 2 ∨ i = 3 := by omega
    rcases this with rfl | rfl | rfl | rfl <;> rfl

end Sys2Proof.Machine
end

