-- ==== Sys2Proof/Laws/PerInstr.lean ====
section
/-! SUPPORT. What holds of every command as syntax, one lemma per constructor. -/

namespace Sys2Proof.Laws.Fields

/-- A command is well formed, its word passes the word check, and the word's two fields are the command's `unit` and
`fn` (30_encoding.md R71, R73). -/
def Statement (i : Instr) : Prop :=
  i.wellFormed = true ∧ commandWordWellFormed (encode i) = true ∧
    unitField (encode i) = unitOf i ∧ fnField (encode i) = fnOf i

theorem subw : Statement .subw := by unfold Statement; decide
theorem kexp : Statement .kexp := by unfold Statement; decide
theorem enc : Statement .enc := by unfold Statement; decide
theorem dec : Statement .dec := by unfold Statement; decide
theorem pad : Statement .pad := by unfold Statement; decide
theorem hinit : Statement .hinit := by unfold Statement; decide
theorem hblk : Statement .hblk := by unfold Statement; decide
theorem hdig : Statement .hdig := by unfold Statement; decide
theorem hash : Statement .hash := by unfold Statement; decide
theorem hash4 : Statement .hash4 := by unfold Statement; decide

end Sys2Proof.Laws.Fields
end

