-- ==== Sys2Proof/Laws/State.lean ====
section
/-! SUPPORT. One lemma per field per update, so that no later proof unfolds a record update. -/

namespace Sys2Proof.Machine

/-! ### putSwOut -/

@[simp] theorem State.putSwOut_swIn (s : State) (w : Word) : (s.putSwOut w).swIn = s.swIn := rfl
@[simp] theorem State.putSwOut_swOut (s : State) (w : Word) : (s.putSwOut w).swOut = .written w := rfl
@[simp] theorem State.putSwOut_key (s : State) (w : Word) : (s.putSwOut w).key = s.key := rfl
@[simp] theorem State.putSwOut_rk (s : State) (w : Word) : (s.putSwOut w).rk = s.rk := rfl
@[simp] theorem State.putSwOut_blkIn (s : State) (w : Word) : (s.putSwOut w).blkIn = s.blkIn := rfl
@[simp] theorem State.putSwOut_blkOut (s : State) (w : Word) : (s.putSwOut w).blkOut = s.blkOut := rfl
@[simp] theorem State.putSwOut_v (s : State) (w : Word) : (s.putSwOut w).v = s.v := rfl
@[simp] theorem State.putSwOut_hb (s : State) (w : Word) : (s.putSwOut w).hb = s.hb := rfl
@[simp] theorem State.putSwOut_dig (s : State) (w : Word) : (s.putSwOut w).dig = s.dig := rfl
@[simp] theorem State.putSwOut_mlen (s : State) (w : Word) : (s.putSwOut w).mlen = s.mlen := rfl
@[simp] theorem State.putSwOut_plen (s : State) (w : Word) : (s.putSwOut w).plen = s.plen := rfl
@[simp] theorem State.putSwOut_ml4 (s : State) (w : Word) : (s.putSwOut w).ml4 = s.ml4 := rfl
@[simp] theorem State.putSwOut_dig4 (s : State) (w : Word) : (s.putSwOut w).dig4 = s.dig4 := rfl
@[simp] theorem State.putSwOut_msg (s : State) (w : Word) : (s.putSwOut w).msg = s.msg := rfl
@[simp] theorem State.putSwOut_pmsg (s : State) (w : Word) : (s.putSwOut w).pmsg = s.pmsg := rfl
@[simp] theorem State.putSwOut_msg4 (s : State) (w : Word) : (s.putSwOut w).msg4 = s.msg4 := rfl
@[simp] theorem State.putSwOut_msgMax (s : State) (w : Word) : (s.putSwOut w).msgMax = s.msgMax := rfl
@[simp] theorem State.putSwOut_refusal (s : State) (w : Word) : (s.putSwOut w).refusal = s.refusal := rfl
@[simp] theorem State.putSwOut_script (s : State) (w : Word) : (s.putSwOut w).script = s.script := rfl
@[simp] theorem State.putSwOut_reads (s : State) (w : Word) : (s.putSwOut w).reads = s.reads := rfl
@[simp] theorem State.putSwOut_freeIndex (s : State) (w : Word) : (s.putSwOut w).freeIndex = s.freeIndex := rfl

/-! ### putRk -/

@[simp] theorem State.putRk_swIn (s : State) (k : Vector Word 32) : (s.putRk k).swIn = s.swIn := by unfold State.putRk; rfl
@[simp] theorem State.putRk_swOut (s : State) (k : Vector Word 32) : (s.putRk k).swOut = s.swOut := by unfold State.putRk; rfl
@[simp] theorem State.putRk_key (s : State) (k : Vector Word 32) : (s.putRk k).key = s.key := by unfold State.putRk; rfl
@[simp] theorem State.putRk_rk (s : State) (k : Vector Word 32) : (s.putRk k).rk = writtenAll k := by unfold State.putRk; rfl
@[simp] theorem State.putRk_blkIn (s : State) (k : Vector Word 32) : (s.putRk k).blkIn = s.blkIn := by unfold State.putRk; rfl
@[simp] theorem State.putRk_blkOut (s : State) (k : Vector Word 32) : (s.putRk k).blkOut = s.blkOut := by unfold State.putRk; rfl
@[simp] theorem State.putRk_v (s : State) (k : Vector Word 32) : (s.putRk k).v = s.v := by unfold State.putRk; rfl
@[simp] theorem State.putRk_hb (s : State) (k : Vector Word 32) : (s.putRk k).hb = s.hb := by unfold State.putRk; rfl
@[simp] theorem State.putRk_dig (s : State) (k : Vector Word 32) : (s.putRk k).dig = s.dig := by unfold State.putRk; rfl
@[simp] theorem State.putRk_mlen (s : State) (k : Vector Word 32) : (s.putRk k).mlen = s.mlen := by unfold State.putRk; rfl
@[simp] theorem State.putRk_plen (s : State) (k : Vector Word 32) : (s.putRk k).plen = s.plen := by unfold State.putRk; rfl
@[simp] theorem State.putRk_ml4 (s : State) (k : Vector Word 32) : (s.putRk k).ml4 = s.ml4 := by unfold State.putRk; rfl
@[simp] theorem State.putRk_dig4 (s : State) (k : Vector Word 32) : (s.putRk k).dig4 = s.dig4 := by unfold State.putRk; rfl
@[simp] theorem State.putRk_msg (s : State) (k : Vector Word 32) : (s.putRk k).msg = s.msg := by unfold State.putRk; rfl
@[simp] theorem State.putRk_pmsg (s : State) (k : Vector Word 32) : (s.putRk k).pmsg = s.pmsg := by unfold State.putRk; rfl
@[simp] theorem State.putRk_msg4 (s : State) (k : Vector Word 32) : (s.putRk k).msg4 = s.msg4 := by unfold State.putRk; rfl
@[simp] theorem State.putRk_msgMax (s : State) (k : Vector Word 32) : (s.putRk k).msgMax = s.msgMax := by unfold State.putRk; rfl
@[simp] theorem State.putRk_refusal (s : State) (k : Vector Word 32) : (s.putRk k).refusal = s.refusal := by unfold State.putRk; rfl
@[simp] theorem State.putRk_script (s : State) (k : Vector Word 32) : (s.putRk k).script = s.script := by unfold State.putRk; rfl
@[simp] theorem State.putRk_reads (s : State) (k : Vector Word 32) : (s.putRk k).reads = s.reads := by unfold State.putRk; rfl
@[simp] theorem State.putRk_freeIndex (s : State) (k : Vector Word 32) : (s.putRk k).freeIndex = s.freeIndex := by unfold State.putRk; rfl

/-! ### putBlkOut -/

@[simp] theorem State.putBlkOut_swIn (s : State) (b : Vector Byte 16) : (s.putBlkOut b).swIn = s.swIn := by unfold State.putBlkOut; rfl
@[simp] theorem State.putBlkOut_swOut (s : State) (b : Vector Byte 16) : (s.putBlkOut b).swOut = s.swOut := by unfold State.putBlkOut; rfl
@[simp] theorem State.putBlkOut_key (s : State) (b : Vector Byte 16) : (s.putBlkOut b).key = s.key := by unfold State.putBlkOut; rfl
@[simp] theorem State.putBlkOut_rk (s : State) (b : Vector Byte 16) : (s.putBlkOut b).rk = s.rk := by unfold State.putBlkOut; rfl
@[simp] theorem State.putBlkOut_blkIn (s : State) (b : Vector Byte 16) : (s.putBlkOut b).blkIn = s.blkIn := by unfold State.putBlkOut; rfl
@[simp] theorem State.putBlkOut_blkOut (s : State) (b : Vector Byte 16) : (s.putBlkOut b).blkOut = writtenAll b := by unfold State.putBlkOut; rfl
@[simp] theorem State.putBlkOut_v (s : State) (b : Vector Byte 16) : (s.putBlkOut b).v = s.v := by unfold State.putBlkOut; rfl
@[simp] theorem State.putBlkOut_hb (s : State) (b : Vector Byte 16) : (s.putBlkOut b).hb = s.hb := by unfold State.putBlkOut; rfl
@[simp] theorem State.putBlkOut_dig (s : State) (b : Vector Byte 16) : (s.putBlkOut b).dig = s.dig := by unfold State.putBlkOut; rfl
@[simp] theorem State.putBlkOut_mlen (s : State) (b : Vector Byte 16) : (s.putBlkOut b).mlen = s.mlen := by unfold State.putBlkOut; rfl
@[simp] theorem State.putBlkOut_plen (s : State) (b : Vector Byte 16) : (s.putBlkOut b).plen = s.plen := by unfold State.putBlkOut; rfl
@[simp] theorem State.putBlkOut_ml4 (s : State) (b : Vector Byte 16) : (s.putBlkOut b).ml4 = s.ml4 := by unfold State.putBlkOut; rfl
@[simp] theorem State.putBlkOut_dig4 (s : State) (b : Vector Byte 16) : (s.putBlkOut b).dig4 = s.dig4 := by unfold State.putBlkOut; rfl
@[simp] theorem State.putBlkOut_msg (s : State) (b : Vector Byte 16) : (s.putBlkOut b).msg = s.msg := by unfold State.putBlkOut; rfl
@[simp] theorem State.putBlkOut_pmsg (s : State) (b : Vector Byte 16) : (s.putBlkOut b).pmsg = s.pmsg := by unfold State.putBlkOut; rfl
@[simp] theorem State.putBlkOut_msg4 (s : State) (b : Vector Byte 16) : (s.putBlkOut b).msg4 = s.msg4 := by unfold State.putBlkOut; rfl
@[simp] theorem State.putBlkOut_msgMax (s : State) (b : Vector Byte 16) : (s.putBlkOut b).msgMax = s.msgMax := by unfold State.putBlkOut; rfl
@[simp] theorem State.putBlkOut_refusal (s : State) (b : Vector Byte 16) : (s.putBlkOut b).refusal = s.refusal := by unfold State.putBlkOut; rfl
@[simp] theorem State.putBlkOut_script (s : State) (b : Vector Byte 16) : (s.putBlkOut b).script = s.script := by unfold State.putBlkOut; rfl
@[simp] theorem State.putBlkOut_reads (s : State) (b : Vector Byte 16) : (s.putBlkOut b).reads = s.reads := by unfold State.putBlkOut; rfl
@[simp] theorem State.putBlkOut_freeIndex (s : State) (b : Vector Byte 16) : (s.putBlkOut b).freeIndex = s.freeIndex := by unfold State.putBlkOut; rfl

/-! ### putV -/

@[simp] theorem State.putV_swIn (s : State) (x : Vector Word 8) : (s.putV x).swIn = s.swIn := by unfold State.putV; rfl
@[simp] theorem State.putV_swOut (s : State) (x : Vector Word 8) : (s.putV x).swOut = s.swOut := by unfold State.putV; rfl
@[simp] theorem State.putV_key (s : State) (x : Vector Word 8) : (s.putV x).key = s.key := by unfold State.putV; rfl
@[simp] theorem State.putV_rk (s : State) (x : Vector Word 8) : (s.putV x).rk = s.rk := by unfold State.putV; rfl
@[simp] theorem State.putV_blkIn (s : State) (x : Vector Word 8) : (s.putV x).blkIn = s.blkIn := by unfold State.putV; rfl
@[simp] theorem State.putV_blkOut (s : State) (x : Vector Word 8) : (s.putV x).blkOut = s.blkOut := by unfold State.putV; rfl
@[simp] theorem State.putV_v (s : State) (x : Vector Word 8) : (s.putV x).v = writtenAll x := by unfold State.putV; rfl
@[simp] theorem State.putV_hb (s : State) (x : Vector Word 8) : (s.putV x).hb = s.hb := by unfold State.putV; rfl
@[simp] theorem State.putV_dig (s : State) (x : Vector Word 8) : (s.putV x).dig = s.dig := by unfold State.putV; rfl
@[simp] theorem State.putV_mlen (s : State) (x : Vector Word 8) : (s.putV x).mlen = s.mlen := by unfold State.putV; rfl
@[simp] theorem State.putV_plen (s : State) (x : Vector Word 8) : (s.putV x).plen = s.plen := by unfold State.putV; rfl
@[simp] theorem State.putV_ml4 (s : State) (x : Vector Word 8) : (s.putV x).ml4 = s.ml4 := by unfold State.putV; rfl
@[simp] theorem State.putV_dig4 (s : State) (x : Vector Word 8) : (s.putV x).dig4 = s.dig4 := by unfold State.putV; rfl
@[simp] theorem State.putV_msg (s : State) (x : Vector Word 8) : (s.putV x).msg = s.msg := by unfold State.putV; rfl
@[simp] theorem State.putV_pmsg (s : State) (x : Vector Word 8) : (s.putV x).pmsg = s.pmsg := by unfold State.putV; rfl
@[simp] theorem State.putV_msg4 (s : State) (x : Vector Word 8) : (s.putV x).msg4 = s.msg4 := by unfold State.putV; rfl
@[simp] theorem State.putV_msgMax (s : State) (x : Vector Word 8) : (s.putV x).msgMax = s.msgMax := by unfold State.putV; rfl
@[simp] theorem State.putV_refusal (s : State) (x : Vector Word 8) : (s.putV x).refusal = s.refusal := by unfold State.putV; rfl
@[simp] theorem State.putV_script (s : State) (x : Vector Word 8) : (s.putV x).script = s.script := by unfold State.putV; rfl
@[simp] theorem State.putV_reads (s : State) (x : Vector Word 8) : (s.putV x).reads = s.reads := by unfold State.putV; rfl
@[simp] theorem State.putV_freeIndex (s : State) (x : Vector Word 8) : (s.putV x).freeIndex = s.freeIndex := by unfold State.putV; rfl

/-! ### putDig -/

@[simp] theorem State.putDig_swIn (s : State) (d : Vector Byte 32) : (s.putDig d).swIn = s.swIn := by unfold State.putDig; rfl
@[simp] theorem State.putDig_swOut (s : State) (d : Vector Byte 32) : (s.putDig d).swOut = s.swOut := by unfold State.putDig; rfl
@[simp] theorem State.putDig_key (s : State) (d : Vector Byte 32) : (s.putDig d).key = s.key := by unfold State.putDig; rfl
@[simp] theorem State.putDig_rk (s : State) (d : Vector Byte 32) : (s.putDig d).rk = s.rk := by unfold State.putDig; rfl
@[simp] theorem State.putDig_blkIn (s : State) (d : Vector Byte 32) : (s.putDig d).blkIn = s.blkIn := by unfold State.putDig; rfl
@[simp] theorem State.putDig_blkOut (s : State) (d : Vector Byte 32) : (s.putDig d).blkOut = s.blkOut := by unfold State.putDig; rfl
@[simp] theorem State.putDig_v (s : State) (d : Vector Byte 32) : (s.putDig d).v = s.v := by unfold State.putDig; rfl
@[simp] theorem State.putDig_hb (s : State) (d : Vector Byte 32) : (s.putDig d).hb = s.hb := by unfold State.putDig; rfl
@[simp] theorem State.putDig_dig (s : State) (d : Vector Byte 32) : (s.putDig d).dig = writtenAll d := by unfold State.putDig; rfl
@[simp] theorem State.putDig_mlen (s : State) (d : Vector Byte 32) : (s.putDig d).mlen = s.mlen := by unfold State.putDig; rfl
@[simp] theorem State.putDig_plen (s : State) (d : Vector Byte 32) : (s.putDig d).plen = s.plen := by unfold State.putDig; rfl
@[simp] theorem State.putDig_ml4 (s : State) (d : Vector Byte 32) : (s.putDig d).ml4 = s.ml4 := by unfold State.putDig; rfl
@[simp] theorem State.putDig_dig4 (s : State) (d : Vector Byte 32) : (s.putDig d).dig4 = s.dig4 := by unfold State.putDig; rfl
@[simp] theorem State.putDig_msg (s : State) (d : Vector Byte 32) : (s.putDig d).msg = s.msg := by unfold State.putDig; rfl
@[simp] theorem State.putDig_pmsg (s : State) (d : Vector Byte 32) : (s.putDig d).pmsg = s.pmsg := by unfold State.putDig; rfl
@[simp] theorem State.putDig_msg4 (s : State) (d : Vector Byte 32) : (s.putDig d).msg4 = s.msg4 := by unfold State.putDig; rfl
@[simp] theorem State.putDig_msgMax (s : State) (d : Vector Byte 32) : (s.putDig d).msgMax = s.msgMax := by unfold State.putDig; rfl
@[simp] theorem State.putDig_refusal (s : State) (d : Vector Byte 32) : (s.putDig d).refusal = s.refusal := by unfold State.putDig; rfl
@[simp] theorem State.putDig_script (s : State) (d : Vector Byte 32) : (s.putDig d).script = s.script := by unfold State.putDig; rfl
@[simp] theorem State.putDig_reads (s : State) (d : Vector Byte 32) : (s.putDig d).reads = s.reads := by unfold State.putDig; rfl
@[simp] theorem State.putDig_freeIndex (s : State) (d : Vector Byte 32) : (s.putDig d).freeIndex = s.freeIndex := by unfold State.putDig; rfl

/-! ### putDig4 -/

@[simp] theorem State.putDig4_swIn (s : State) (d : Vector (Vector Byte 32) 4) : (s.putDig4 d).swIn = s.swIn := by unfold State.putDig4; rfl
@[simp] theorem State.putDig4_swOut (s : State) (d : Vector (Vector Byte 32) 4) : (s.putDig4 d).swOut = s.swOut := by unfold State.putDig4; rfl
@[simp] theorem State.putDig4_key (s : State) (d : Vector (Vector Byte 32) 4) : (s.putDig4 d).key = s.key := by unfold State.putDig4; rfl
@[simp] theorem State.putDig4_rk (s : State) (d : Vector (Vector Byte 32) 4) : (s.putDig4 d).rk = s.rk := by unfold State.putDig4; rfl
@[simp] theorem State.putDig4_blkIn (s : State) (d : Vector (Vector Byte 32) 4) : (s.putDig4 d).blkIn = s.blkIn := by unfold State.putDig4; rfl
@[simp] theorem State.putDig4_blkOut (s : State) (d : Vector (Vector Byte 32) 4) : (s.putDig4 d).blkOut = s.blkOut := by unfold State.putDig4; rfl
@[simp] theorem State.putDig4_v (s : State) (d : Vector (Vector Byte 32) 4) : (s.putDig4 d).v = s.v := by unfold State.putDig4; rfl
@[simp] theorem State.putDig4_hb (s : State) (d : Vector (Vector Byte 32) 4) : (s.putDig4 d).hb = s.hb := by unfold State.putDig4; rfl
@[simp] theorem State.putDig4_dig (s : State) (d : Vector (Vector Byte 32) 4) : (s.putDig4 d).dig = s.dig := by unfold State.putDig4; rfl
@[simp] theorem State.putDig4_mlen (s : State) (d : Vector (Vector Byte 32) 4) : (s.putDig4 d).mlen = s.mlen := by unfold State.putDig4; rfl
@[simp] theorem State.putDig4_plen (s : State) (d : Vector (Vector Byte 32) 4) : (s.putDig4 d).plen = s.plen := by unfold State.putDig4; rfl
@[simp] theorem State.putDig4_ml4 (s : State) (d : Vector (Vector Byte 32) 4) : (s.putDig4 d).ml4 = s.ml4 := by unfold State.putDig4; rfl
@[simp] theorem State.putDig4_dig4 (s : State) (d : Vector (Vector Byte 32) 4) : (s.putDig4 d).dig4 = Vector.ofFn fun k => writtenAll d[k] := by unfold State.putDig4; rfl
@[simp] theorem State.putDig4_msg (s : State) (d : Vector (Vector Byte 32) 4) : (s.putDig4 d).msg = s.msg := by unfold State.putDig4; rfl
@[simp] theorem State.putDig4_pmsg (s : State) (d : Vector (Vector Byte 32) 4) : (s.putDig4 d).pmsg = s.pmsg := by unfold State.putDig4; rfl
@[simp] theorem State.putDig4_msg4 (s : State) (d : Vector (Vector Byte 32) 4) : (s.putDig4 d).msg4 = s.msg4 := by unfold State.putDig4; rfl
@[simp] theorem State.putDig4_msgMax (s : State) (d : Vector (Vector Byte 32) 4) : (s.putDig4 d).msgMax = s.msgMax := by unfold State.putDig4; rfl
@[simp] theorem State.putDig4_refusal (s : State) (d : Vector (Vector Byte 32) 4) : (s.putDig4 d).refusal = s.refusal := by unfold State.putDig4; rfl
@[simp] theorem State.putDig4_script (s : State) (d : Vector (Vector Byte 32) 4) : (s.putDig4 d).script = s.script := by unfold State.putDig4; rfl
@[simp] theorem State.putDig4_reads (s : State) (d : Vector (Vector Byte 32) 4) : (s.putDig4 d).reads = s.reads := by unfold State.putDig4; rfl
@[simp] theorem State.putDig4_freeIndex (s : State) (d : Vector (Vector Byte 32) 4) : (s.putDig4 d).freeIndex = s.freeIndex := by unfold State.putDig4; rfl

/-! ### putPadded -/

@[simp] theorem State.putPadded_swIn (s : State) (p : List Byte) : (s.putPadded p).swIn = s.swIn := rfl
@[simp] theorem State.putPadded_swOut (s : State) (p : List Byte) : (s.putPadded p).swOut = s.swOut := rfl
@[simp] theorem State.putPadded_key (s : State) (p : List Byte) : (s.putPadded p).key = s.key := rfl
@[simp] theorem State.putPadded_rk (s : State) (p : List Byte) : (s.putPadded p).rk = s.rk := rfl
@[simp] theorem State.putPadded_blkIn (s : State) (p : List Byte) : (s.putPadded p).blkIn = s.blkIn := rfl
@[simp] theorem State.putPadded_blkOut (s : State) (p : List Byte) : (s.putPadded p).blkOut = s.blkOut := rfl
@[simp] theorem State.putPadded_v (s : State) (p : List Byte) : (s.putPadded p).v = s.v := rfl
@[simp] theorem State.putPadded_hb (s : State) (p : List Byte) : (s.putPadded p).hb = s.hb := rfl
@[simp] theorem State.putPadded_dig (s : State) (p : List Byte) : (s.putPadded p).dig = s.dig := rfl
@[simp] theorem State.putPadded_mlen (s : State) (p : List Byte) : (s.putPadded p).mlen = s.mlen := rfl
@[simp] theorem State.putPadded_plen (s : State) (p : List Byte) : (s.putPadded p).plen = .written (BitVec.ofNat 64 p.length) := rfl
@[simp] theorem State.putPadded_ml4 (s : State) (p : List Byte) : (s.putPadded p).ml4 = s.ml4 := rfl
@[simp] theorem State.putPadded_dig4 (s : State) (p : List Byte) : (s.putPadded p).dig4 = s.dig4 := rfl
@[simp] theorem State.putPadded_msg (s : State) (p : List Byte) : (s.putPadded p).msg = s.msg := rfl
@[simp] theorem State.putPadded_pmsg (s : State) (p : List Byte) : (s.putPadded p).pmsg = s.pmsg.writeBytes 0 p := rfl
@[simp] theorem State.putPadded_msg4 (s : State) (p : List Byte) : (s.putPadded p).msg4 = s.msg4 := rfl
@[simp] theorem State.putPadded_msgMax (s : State) (p : List Byte) : (s.putPadded p).msgMax = s.msgMax := rfl
@[simp] theorem State.putPadded_refusal (s : State) (p : List Byte) : (s.putPadded p).refusal = s.refusal := rfl
@[simp] theorem State.putPadded_script (s : State) (p : List Byte) : (s.putPadded p).script = s.script := rfl
@[simp] theorem State.putPadded_reads (s : State) (p : List Byte) : (s.putPadded p).reads = s.reads := rfl
@[simp] theorem State.putPadded_freeIndex (s : State) (p : List Byte) : (s.putPadded p).freeIndex = s.freeIndex := rfl

/-! ### deliver -/

@[simp] theorem State.deliver_swIn (s : State) (x : HostValue) : (s.deliver x).swIn = s.swIn := rfl
@[simp] theorem State.deliver_swOut (s : State) (x : HostValue) : (s.deliver x).swOut = s.swOut := rfl
@[simp] theorem State.deliver_key (s : State) (x : HostValue) : (s.deliver x).key = s.key := rfl
@[simp] theorem State.deliver_rk (s : State) (x : HostValue) : (s.deliver x).rk = s.rk := rfl
@[simp] theorem State.deliver_blkIn (s : State) (x : HostValue) : (s.deliver x).blkIn = s.blkIn := rfl
@[simp] theorem State.deliver_blkOut (s : State) (x : HostValue) : (s.deliver x).blkOut = s.blkOut := rfl
@[simp] theorem State.deliver_v (s : State) (x : HostValue) : (s.deliver x).v = s.v := rfl
@[simp] theorem State.deliver_hb (s : State) (x : HostValue) : (s.deliver x).hb = s.hb := rfl
@[simp] theorem State.deliver_dig (s : State) (x : HostValue) : (s.deliver x).dig = s.dig := rfl
@[simp] theorem State.deliver_mlen (s : State) (x : HostValue) : (s.deliver x).mlen = s.mlen := rfl
@[simp] theorem State.deliver_plen (s : State) (x : HostValue) : (s.deliver x).plen = s.plen := rfl
@[simp] theorem State.deliver_ml4 (s : State) (x : HostValue) : (s.deliver x).ml4 = s.ml4 := rfl
@[simp] theorem State.deliver_dig4 (s : State) (x : HostValue) : (s.deliver x).dig4 = s.dig4 := rfl
@[simp] theorem State.deliver_msg (s : State) (x : HostValue) : (s.deliver x).msg = s.msg := rfl
@[simp] theorem State.deliver_pmsg (s : State) (x : HostValue) : (s.deliver x).pmsg = s.pmsg := rfl
@[simp] theorem State.deliver_msg4 (s : State) (x : HostValue) : (s.deliver x).msg4 = s.msg4 := rfl
@[simp] theorem State.deliver_msgMax (s : State) (x : HostValue) : (s.deliver x).msgMax = s.msgMax := rfl
@[simp] theorem State.deliver_refusal (s : State) (x : HostValue) : (s.deliver x).refusal = s.refusal := rfl
@[simp] theorem State.deliver_script (s : State) (x : HostValue) : (s.deliver x).script = s.script := rfl
@[simp] theorem State.deliver_reads (s : State) (x : HostValue) : (s.deliver x).reads = x :: s.reads := rfl
@[simp] theorem State.deliver_freeIndex (s : State) (x : HostValue) : (s.deliver x).freeIndex = s.freeIndex := rfl

/-! ### enqueueCommand -/

@[simp] theorem State.enqueueCommand_swIn (s : State) (c : Byte) : (s.enqueueCommand c).swIn = s.swIn := rfl
@[simp] theorem State.enqueueCommand_swOut (s : State) (c : Byte) : (s.enqueueCommand c).swOut = s.swOut := rfl
@[simp] theorem State.enqueueCommand_key (s : State) (c : Byte) : (s.enqueueCommand c).key = s.key := rfl
@[simp] theorem State.enqueueCommand_rk (s : State) (c : Byte) : (s.enqueueCommand c).rk = s.rk := rfl
@[simp] theorem State.enqueueCommand_blkIn (s : State) (c : Byte) : (s.enqueueCommand c).blkIn = s.blkIn := rfl
@[simp] theorem State.enqueueCommand_blkOut (s : State) (c : Byte) : (s.enqueueCommand c).blkOut = s.blkOut := rfl
@[simp] theorem State.enqueueCommand_v (s : State) (c : Byte) : (s.enqueueCommand c).v = s.v := rfl
@[simp] theorem State.enqueueCommand_hb (s : State) (c : Byte) : (s.enqueueCommand c).hb = s.hb := rfl
@[simp] theorem State.enqueueCommand_dig (s : State) (c : Byte) : (s.enqueueCommand c).dig = s.dig := rfl
@[simp] theorem State.enqueueCommand_mlen (s : State) (c : Byte) : (s.enqueueCommand c).mlen = s.mlen := rfl
@[simp] theorem State.enqueueCommand_plen (s : State) (c : Byte) : (s.enqueueCommand c).plen = s.plen := rfl
@[simp] theorem State.enqueueCommand_ml4 (s : State) (c : Byte) : (s.enqueueCommand c).ml4 = s.ml4 := rfl
@[simp] theorem State.enqueueCommand_dig4 (s : State) (c : Byte) : (s.enqueueCommand c).dig4 = s.dig4 := rfl
@[simp] theorem State.enqueueCommand_msg (s : State) (c : Byte) : (s.enqueueCommand c).msg = s.msg := rfl
@[simp] theorem State.enqueueCommand_pmsg (s : State) (c : Byte) : (s.enqueueCommand c).pmsg = s.pmsg := rfl
@[simp] theorem State.enqueueCommand_msg4 (s : State) (c : Byte) : (s.enqueueCommand c).msg4 = s.msg4 := rfl
@[simp] theorem State.enqueueCommand_msgMax (s : State) (c : Byte) : (s.enqueueCommand c).msgMax = s.msgMax := rfl
@[simp] theorem State.enqueueCommand_refusal (s : State) (c : Byte) : (s.enqueueCommand c).refusal = s.refusal := rfl
@[simp] theorem State.enqueueCommand_script (s : State) (c : Byte) : (s.enqueueCommand c).script = .cmd c :: s.script := rfl
@[simp] theorem State.enqueueCommand_reads (s : State) (c : Byte) : (s.enqueueCommand c).reads = s.reads := rfl
@[simp] theorem State.enqueueCommand_freeIndex (s : State) (c : Byte) : (s.enqueueCommand c).freeIndex = s.freeIndex := rfl

/-! ### markRefused -/

@[simp] theorem State.markRefused_swIn (s : State) (r : Refusal) : (s.markRefused r).swIn = s.swIn := rfl
@[simp] theorem State.markRefused_swOut (s : State) (r : Refusal) : (s.markRefused r).swOut = s.swOut := rfl
@[simp] theorem State.markRefused_key (s : State) (r : Refusal) : (s.markRefused r).key = s.key := rfl
@[simp] theorem State.markRefused_rk (s : State) (r : Refusal) : (s.markRefused r).rk = s.rk := rfl
@[simp] theorem State.markRefused_blkIn (s : State) (r : Refusal) : (s.markRefused r).blkIn = s.blkIn := rfl
@[simp] theorem State.markRefused_blkOut (s : State) (r : Refusal) : (s.markRefused r).blkOut = s.blkOut := rfl
@[simp] theorem State.markRefused_v (s : State) (r : Refusal) : (s.markRefused r).v = s.v := rfl
@[simp] theorem State.markRefused_hb (s : State) (r : Refusal) : (s.markRefused r).hb = s.hb := rfl
@[simp] theorem State.markRefused_dig (s : State) (r : Refusal) : (s.markRefused r).dig = s.dig := rfl
@[simp] theorem State.markRefused_mlen (s : State) (r : Refusal) : (s.markRefused r).mlen = s.mlen := rfl
@[simp] theorem State.markRefused_plen (s : State) (r : Refusal) : (s.markRefused r).plen = s.plen := rfl
@[simp] theorem State.markRefused_ml4 (s : State) (r : Refusal) : (s.markRefused r).ml4 = s.ml4 := rfl
@[simp] theorem State.markRefused_dig4 (s : State) (r : Refusal) : (s.markRefused r).dig4 = s.dig4 := rfl
@[simp] theorem State.markRefused_msg (s : State) (r : Refusal) : (s.markRefused r).msg = s.msg := rfl
@[simp] theorem State.markRefused_pmsg (s : State) (r : Refusal) : (s.markRefused r).pmsg = s.pmsg := rfl
@[simp] theorem State.markRefused_msg4 (s : State) (r : Refusal) : (s.markRefused r).msg4 = s.msg4 := rfl
@[simp] theorem State.markRefused_msgMax (s : State) (r : Refusal) : (s.markRefused r).msgMax = s.msgMax := rfl
@[simp] theorem State.markRefused_script (s : State) (r : Refusal) : (s.markRefused r).script = s.script := rfl
@[simp] theorem State.markRefused_reads (s : State) (r : Refusal) : (s.markRefused r).reads = s.reads := rfl
@[simp] theorem State.markRefused_freeIndex (s : State) (r : Refusal) : (s.markRefused r).freeIndex = s.freeIndex := rfl

/-- The mark is set after a refusal, whatever it was before (60_exceptions.md R172). -/
@[simp] theorem State.markRefused_refusal (s : State) (r : Refusal) :
    (s.markRefused r).refusal = some (s.refusal.getD r) := by
  unfold State.markRefused; cases s.refusal <;> rfl

/-! ### resetEvent -/

@[simp] theorem State.resetEvent_swIn (s : State) : s.resetEvent.swIn = (State.resetWith s.msgMax).swIn := rfl
@[simp] theorem State.resetEvent_swOut (s : State) : s.resetEvent.swOut = (State.resetWith s.msgMax).swOut := rfl
@[simp] theorem State.resetEvent_key (s : State) : s.resetEvent.key = (State.resetWith s.msgMax).key := rfl
@[simp] theorem State.resetEvent_rk (s : State) : s.resetEvent.rk = (State.resetWith s.msgMax).rk := rfl
@[simp] theorem State.resetEvent_blkIn (s : State) : s.resetEvent.blkIn = (State.resetWith s.msgMax).blkIn := rfl
@[simp] theorem State.resetEvent_blkOut (s : State) : s.resetEvent.blkOut = (State.resetWith s.msgMax).blkOut := rfl
@[simp] theorem State.resetEvent_v (s : State) : s.resetEvent.v = (State.resetWith s.msgMax).v := rfl
@[simp] theorem State.resetEvent_hb (s : State) : s.resetEvent.hb = (State.resetWith s.msgMax).hb := rfl
@[simp] theorem State.resetEvent_dig (s : State) : s.resetEvent.dig = (State.resetWith s.msgMax).dig := rfl
@[simp] theorem State.resetEvent_mlen (s : State) : s.resetEvent.mlen = (State.resetWith s.msgMax).mlen := rfl
@[simp] theorem State.resetEvent_plen (s : State) : s.resetEvent.plen = (State.resetWith s.msgMax).plen := rfl
@[simp] theorem State.resetEvent_ml4 (s : State) : s.resetEvent.ml4 = (State.resetWith s.msgMax).ml4 := rfl
@[simp] theorem State.resetEvent_dig4 (s : State) : s.resetEvent.dig4 = (State.resetWith s.msgMax).dig4 := rfl
@[simp] theorem State.resetEvent_msg (s : State) : s.resetEvent.msg = (State.resetWith s.msgMax).msg := rfl
@[simp] theorem State.resetEvent_pmsg (s : State) : s.resetEvent.pmsg = (State.resetWith s.msgMax).pmsg := rfl
@[simp] theorem State.resetEvent_msg4 (s : State) : s.resetEvent.msg4 = (State.resetWith s.msgMax).msg4 := rfl
@[simp] theorem State.resetEvent_msgMax (s : State) : s.resetEvent.msgMax = s.msgMax := rfl
@[simp] theorem State.resetEvent_refusal (s : State) : s.resetEvent.refusal = (State.resetWith s.msgMax).refusal := rfl
@[simp] theorem State.resetEvent_script (s : State) : s.resetEvent.script = s.script := rfl
@[simp] theorem State.resetEvent_reads (s : State) : s.resetEvent.reads = s.reads := rfl
@[simp] theorem State.resetEvent_freeIndex (s : State) : s.resetEvent.freeIndex = s.freeIndex := rfl

/-! ### useFree -/

@[simp] theorem State.useFree_swIn {α : Type} (s : State) (x : Slot α) : (s.useFree x).swIn = s.swIn := by
  cases x <;> rfl
@[simp] theorem State.useFree_swOut {α : Type} (s : State) (x : Slot α) : (s.useFree x).swOut = s.swOut := by
  cases x <;> rfl
@[simp] theorem State.useFree_key {α : Type} (s : State) (x : Slot α) : (s.useFree x).key = s.key := by
  cases x <;> rfl
@[simp] theorem State.useFree_rk {α : Type} (s : State) (x : Slot α) : (s.useFree x).rk = s.rk := by
  cases x <;> rfl
@[simp] theorem State.useFree_blkIn {α : Type} (s : State) (x : Slot α) : (s.useFree x).blkIn = s.blkIn := by
  cases x <;> rfl
@[simp] theorem State.useFree_blkOut {α : Type} (s : State) (x : Slot α) : (s.useFree x).blkOut = s.blkOut := by
  cases x <;> rfl
@[simp] theorem State.useFree_v {α : Type} (s : State) (x : Slot α) : (s.useFree x).v = s.v := by
  cases x <;> rfl
@[simp] theorem State.useFree_hb {α : Type} (s : State) (x : Slot α) : (s.useFree x).hb = s.hb := by
  cases x <;> rfl
@[simp] theorem State.useFree_dig {α : Type} (s : State) (x : Slot α) : (s.useFree x).dig = s.dig := by
  cases x <;> rfl
@[simp] theorem State.useFree_mlen {α : Type} (s : State) (x : Slot α) : (s.useFree x).mlen = s.mlen := by
  cases x <;> rfl
@[simp] theorem State.useFree_plen {α : Type} (s : State) (x : Slot α) : (s.useFree x).plen = s.plen := by
  cases x <;> rfl
@[simp] theorem State.useFree_ml4 {α : Type} (s : State) (x : Slot α) : (s.useFree x).ml4 = s.ml4 := by
  cases x <;> rfl
@[simp] theorem State.useFree_dig4 {α : Type} (s : State) (x : Slot α) : (s.useFree x).dig4 = s.dig4 := by
  cases x <;> rfl
@[simp] theorem State.useFree_msg {α : Type} (s : State) (x : Slot α) : (s.useFree x).msg = s.msg := by
  cases x <;> rfl
@[simp] theorem State.useFree_pmsg {α : Type} (s : State) (x : Slot α) : (s.useFree x).pmsg = s.pmsg := by
  cases x <;> rfl
@[simp] theorem State.useFree_msg4 {α : Type} (s : State) (x : Slot α) : (s.useFree x).msg4 = s.msg4 := by
  cases x <;> rfl
@[simp] theorem State.useFree_msgMax {α : Type} (s : State) (x : Slot α) : (s.useFree x).msgMax = s.msgMax := by
  cases x <;> rfl
@[simp] theorem State.useFree_refusal {α : Type} (s : State) (x : Slot α) : (s.useFree x).refusal = s.refusal := by
  cases x <;> rfl
@[simp] theorem State.useFree_script {α : Type} (s : State) (x : Slot α) : (s.useFree x).script = s.script := by
  cases x <;> rfl
@[simp] theorem State.useFree_reads {α : Type} (s : State) (x : Slot α) : (s.useFree x).reads = s.reads := by
  cases x <;> rfl

/-! ### one element stored: the fields that hold no byte, no word or no length -/

@[simp] theorem State.setBuffer_swIn (s : State) (S : Space) (m : Memory) : (s.setBuffer S m).swIn = s.swIn := by
  cases S <;> rfl
@[simp] theorem State.setBuffer_swOut (s : State) (S : Space) (m : Memory) : (s.setBuffer S m).swOut = s.swOut := by
  cases S <;> rfl
@[simp] theorem State.setBuffer_key (s : State) (S : Space) (m : Memory) : (s.setBuffer S m).key = s.key := by
  cases S <;> rfl
@[simp] theorem State.setBuffer_rk (s : State) (S : Space) (m : Memory) : (s.setBuffer S m).rk = s.rk := by
  cases S <;> rfl
@[simp] theorem State.setBuffer_blkIn (s : State) (S : Space) (m : Memory) : (s.setBuffer S m).blkIn = s.blkIn := by
  cases S <;> rfl
@[simp] theorem State.setBuffer_blkOut (s : State) (S : Space) (m : Memory) : (s.setBuffer S m).blkOut = s.blkOut := by
  cases S <;> rfl
@[simp] theorem State.setBuffer_v (s : State) (S : Space) (m : Memory) : (s.setBuffer S m).v = s.v := by
  cases S <;> rfl
@[simp] theorem State.setBuffer_hb (s : State) (S : Space) (m : Memory) : (s.setBuffer S m).hb = s.hb := by
  cases S <;> rfl
@[simp] theorem State.setBuffer_dig (s : State) (S : Space) (m : Memory) : (s.setBuffer S m).dig = s.dig := by
  cases S <;> rfl
@[simp] theorem State.setBuffer_mlen (s : State) (S : Space) (m : Memory) : (s.setBuffer S m).mlen = s.mlen := by
  cases S <;> rfl
@[simp] theorem State.setBuffer_plen (s : State) (S : Space) (m : Memory) : (s.setBuffer S m).plen = s.plen := by
  cases S <;> rfl
@[simp] theorem State.setBuffer_ml4 (s : State) (S : Space) (m : Memory) : (s.setBuffer S m).ml4 = s.ml4 := by
  cases S <;> rfl
@[simp] theorem State.setBuffer_dig4 (s : State) (S : Space) (m : Memory) : (s.setBuffer S m).dig4 = s.dig4 := by
  cases S <;> rfl
@[simp] theorem State.setBuffer_msgMax (s : State) (S : Space) (m : Memory) : (s.setBuffer S m).msgMax = s.msgMax := by
  cases S <;> rfl
@[simp] theorem State.setBuffer_refusal (s : State) (S : Space) (m : Memory) : (s.setBuffer S m).refusal = s.refusal := by
  cases S <;> rfl
@[simp] theorem State.setBuffer_script (s : State) (S : Space) (m : Memory) : (s.setBuffer S m).script = s.script := by
  cases S <;> rfl
@[simp] theorem State.setBuffer_reads (s : State) (S : Space) (m : Memory) : (s.setBuffer S m).reads = s.reads := by
  cases S <;> rfl
@[simp] theorem State.setBuffer_freeIndex (s : State) (S : Space) (m : Memory) : (s.setBuffer S m).freeIndex = s.freeIndex := by
  cases S <;> rfl

@[simp] theorem State.setByte_swIn (s : State) (e : ByteElem) (b : Byte) : (s.setByte e b).swIn = s.swIn := by
  cases e with
  | buf S a => cases S <;> rfl
  | _ => rfl
@[simp] theorem State.setByte_swOut (s : State) (e : ByteElem) (b : Byte) : (s.setByte e b).swOut = s.swOut := by
  cases e with
  | buf S a => cases S <;> rfl
  | _ => rfl
@[simp] theorem State.setByte_rk (s : State) (e : ByteElem) (b : Byte) : (s.setByte e b).rk = s.rk := by
  cases e with
  | buf S a => cases S <;> rfl
  | _ => rfl
@[simp] theorem State.setByte_v (s : State) (e : ByteElem) (b : Byte) : (s.setByte e b).v = s.v := by
  cases e with
  | buf S a => cases S <;> rfl
  | _ => rfl
@[simp] theorem State.setByte_mlen (s : State) (e : ByteElem) (b : Byte) : (s.setByte e b).mlen = s.mlen := by
  cases e with
  | buf S a => cases S <;> rfl
  | _ => rfl
@[simp] theorem State.setByte_plen (s : State) (e : ByteElem) (b : Byte) : (s.setByte e b).plen = s.plen := by
  cases e with
  | buf S a => cases S <;> rfl
  | _ => rfl
@[simp] theorem State.setByte_ml4 (s : State) (e : ByteElem) (b : Byte) : (s.setByte e b).ml4 = s.ml4 := by
  cases e with
  | buf S a => cases S <;> rfl
  | _ => rfl
@[simp] theorem State.setByte_msgMax (s : State) (e : ByteElem) (b : Byte) : (s.setByte e b).msgMax = s.msgMax := by
  cases e with
  | buf S a => cases S <;> rfl
  | _ => rfl
@[simp] theorem State.setByte_refusal (s : State) (e : ByteElem) (b : Byte) : (s.setByte e b).refusal = s.refusal := by
  cases e with
  | buf S a => cases S <;> rfl
  | _ => rfl
@[simp] theorem State.setByte_script (s : State) (e : ByteElem) (b : Byte) : (s.setByte e b).script = s.script := by
  cases e with
  | buf S a => cases S <;> rfl
  | _ => rfl
@[simp] theorem State.setByte_reads (s : State) (e : ByteElem) (b : Byte) : (s.setByte e b).reads = s.reads := by
  cases e with
  | buf S a => cases S <;> rfl
  | _ => rfl
@[simp] theorem State.setByte_freeIndex (s : State) (e : ByteElem) (b : Byte) : (s.setByte e b).freeIndex = s.freeIndex := by
  cases e with
  | buf S a => cases S <;> rfl
  | _ => rfl

@[simp] theorem State.setWord_key (s : State) (e : WordElem) (w : Word) : (s.setWord e w).key = s.key := by
  cases e <;> rfl
@[simp] theorem State.setWord_blkIn (s : State) (e : WordElem) (w : Word) : (s.setWord e w).blkIn = s.blkIn := by
  cases e <;> rfl
@[simp] theorem State.setWord_blkOut (s : State) (e : WordElem) (w : Word) : (s.setWord e w).blkOut = s.blkOut := by
  cases e <;> rfl
@[simp] theorem State.setWord_hb (s : State) (e : WordElem) (w : Word) : (s.setWord e w).hb = s.hb := by
  cases e <;> rfl
@[simp] theorem State.setWord_dig (s : State) (e : WordElem) (w : Word) : (s.setWord e w).dig = s.dig := by
  cases e <;> rfl
@[simp] theorem State.setWord_mlen (s : State) (e : WordElem) (w : Word) : (s.setWord e w).mlen = s.mlen := by
  cases e <;> rfl
@[simp] theorem State.setWord_plen (s : State) (e : WordElem) (w : Word) : (s.setWord e w).plen = s.plen := by
  cases e <;> rfl
@[simp] theorem State.setWord_ml4 (s : State) (e : WordElem) (w : Word) : (s.setWord e w).ml4 = s.ml4 := by
  cases e <;> rfl
@[simp] theorem State.setWord_dig4 (s : State) (e : WordElem) (w : Word) : (s.setWord e w).dig4 = s.dig4 := by
  cases e <;> rfl
@[simp] theorem State.setWord_msg (s : State) (e : WordElem) (w : Word) : (s.setWord e w).msg = s.msg := by
  cases e <;> rfl
@[simp] theorem State.setWord_pmsg (s : State) (e : WordElem) (w : Word) : (s.setWord e w).pmsg = s.pmsg := by
  cases e <;> rfl
@[simp] theorem State.setWord_msg4 (s : State) (e : WordElem) (w : Word) : (s.setWord e w).msg4 = s.msg4 := by
  cases e <;> rfl
@[simp] theorem State.setWord_msgMax (s : State) (e : WordElem) (w : Word) : (s.setWord e w).msgMax = s.msgMax := by
  cases e <;> rfl
@[simp] theorem State.setWord_refusal (s : State) (e : WordElem) (w : Word) : (s.setWord e w).refusal = s.refusal := by
  cases e <;> rfl
@[simp] theorem State.setWord_script (s : State) (e : WordElem) (w : Word) : (s.setWord e w).script = s.script := by
  cases e <;> rfl
@[simp] theorem State.setWord_reads (s : State) (e : WordElem) (w : Word) : (s.setWord e w).reads = s.reads := by
  cases e <;> rfl
@[simp] theorem State.setWord_freeIndex (s : State) (e : WordElem) (w : Word) : (s.setWord e w).freeIndex = s.freeIndex := by
  cases e <;> rfl

@[simp] theorem State.setLen_swIn (s : State) (e : LenElem) (l : Len) : (s.setLen e l).swIn = s.swIn := by
  cases e <;> rfl
@[simp] theorem State.setLen_swOut (s : State) (e : LenElem) (l : Len) : (s.setLen e l).swOut = s.swOut := by
  cases e <;> rfl
@[simp] theorem State.setLen_key (s : State) (e : LenElem) (l : Len) : (s.setLen e l).key = s.key := by
  cases e <;> rfl
@[simp] theorem State.setLen_rk (s : State) (e : LenElem) (l : Len) : (s.setLen e l).rk = s.rk := by
  cases e <;> rfl
@[simp] theorem State.setLen_blkIn (s : State) (e : LenElem) (l : Len) : (s.setLen e l).blkIn = s.blkIn := by
  cases e <;> rfl
@[simp] theorem State.setLen_blkOut (s : State) (e : LenElem) (l : Len) : (s.setLen e l).blkOut = s.blkOut := by
  cases e <;> rfl
@[simp] theorem State.setLen_v (s : State) (e : LenElem) (l : Len) : (s.setLen e l).v = s.v := by
  cases e <;> rfl
@[simp] theorem State.setLen_hb (s : State) (e : LenElem) (l : Len) : (s.setLen e l).hb = s.hb := by
  cases e <;> rfl
@[simp] theorem State.setLen_dig (s : State) (e : LenElem) (l : Len) : (s.setLen e l).dig = s.dig := by
  cases e <;> rfl
@[simp] theorem State.setLen_dig4 (s : State) (e : LenElem) (l : Len) : (s.setLen e l).dig4 = s.dig4 := by
  cases e <;> rfl
@[simp] theorem State.setLen_msg (s : State) (e : LenElem) (l : Len) : (s.setLen e l).msg = s.msg := by
  cases e <;> rfl
@[simp] theorem State.setLen_pmsg (s : State) (e : LenElem) (l : Len) : (s.setLen e l).pmsg = s.pmsg := by
  cases e <;> rfl
@[simp] theorem State.setLen_msg4 (s : State) (e : LenElem) (l : Len) : (s.setLen e l).msg4 = s.msg4 := by
  cases e <;> rfl
@[simp] theorem State.setLen_msgMax (s : State) (e : LenElem) (l : Len) : (s.setLen e l).msgMax = s.msgMax := by
  cases e <;> rfl
@[simp] theorem State.setLen_refusal (s : State) (e : LenElem) (l : Len) : (s.setLen e l).refusal = s.refusal := by
  cases e <;> rfl
@[simp] theorem State.setLen_script (s : State) (e : LenElem) (l : Len) : (s.setLen e l).script = s.script := by
  cases e <;> rfl
@[simp] theorem State.setLen_reads (s : State) (e : LenElem) (l : Len) : (s.setLen e l).reads = s.reads := by
  cases e <;> rfl
@[simp] theorem State.setLen_freeIndex (s : State) (e : LenElem) (l : Len) : (s.setLen e l).freeIndex = s.freeIndex := by
  cases e <;> rfl

end Sys2Proof.Machine
end

