-- ==== Sys2Proof/Laws/Step.lean ====
section
/-! SUPPORT. What one step can do. -/

namespace Sys2Proof.Machine

/-- Everything a step can do: idle on an empty script, else one host action on the state without it. -/
theorem step_cases (s : State) :
    (s.script = [] ∧ step s = .next s) ∨
    ∃ a rest, s.script = a :: rest ∧ step s = perform a { s with script := rest } := by
  unfold step runNext
  cases h : s.script with
  | nil => exact .inl ⟨rfl, rfl⟩
  | cons a rest => exact .inr ⟨a, rest, rfl, rfl⟩

theorem step_of_script {s : State} {a : HostAction} {rest : List HostAction} (h : s.script = a :: rest) :
    step s = perform a { s with script := rest } := by
  unfold step runNext; rw [h]

/-- Everything a CMD write can do: the command's own next state, or the refusal absorbed. -/
theorem absorbRefusal_next {s t : State} {o : Result} (h : absorbRefusal s o = .next t) :
    o = .next t ∨ ∃ r, o = .refused r ∧ t = s.markRefused r := by
  cases o with
  | next u => exact .inl h
  | fault f => cases h
  | refused r => cases h; exact .inr ⟨r, rfl, rfl⟩

/-- An accepted write to CMD is a decoded command that answered a next state. -/
theorem issue_next {c : Byte} {s t : State} (h : issue c s = .next t) : ∃ i, decode c = .ok i ∧ exec i s = .next t := by
  unfold issue at h
  split at h
  · next i hi => exact ⟨i, hi, h⟩
  · cases h

/-- A byte access goes on only where the byte exists. -/
theorem ifByteExists_next {s t : State} {e : ByteElem} {k : Result} (h : ifByteExists s e k = .next t) : k = .next t := by
  unfold ifByteExists at h
  split at h
  · split at h
    · exact h
    · cases h
  all_goals exact h

/-- Everything one host action that goes on can do. -/
theorem perform_cases {a : HostAction} {s t : State} (h : perform a s = .next t) :
    (a = .reset ∧ t = s.resetEvent) ∨
    (∃ c i, a = .cmd c ∧ decode c = .ok i ∧ exec i s = .next t) ∨
    (∃ c r, a = .cmd c ∧ issue c s = .refused r ∧ t = s.markRefused r) ∨
    (∃ e b, a = .writeByte e b ∧ ifByteExists s e (.next (s.setByte e b)) = .next t) ∨
    (∃ e w, a = .writeWord e w ∧ t = s.setWord e w) ∨
    (∃ e l, a = .writeLen e l ∧ t = s.setLen e l) ∨
    (∃ e, a = .read e ∧ hostRead s e = .next t) ∨
    (∃ dst src, a = .copyByte dst src ∧ hostCopy s dst src = .next t) := by
  cases a with
  | reset => cases h; exact .inl ⟨rfl, rfl⟩
  | cmd c =>
    rcases absorbRefusal_next h with h | ⟨r, hr, rfl⟩
    · obtain ⟨i, hi, he⟩ := issue_next h
      exact .inr (.inl ⟨c, i, rfl, hi, he⟩)
    · exact .inr (.inr (.inl ⟨c, r, rfl, hr, rfl⟩))
  | writeByte e b => exact .inr (.inr (.inr (.inl ⟨e, b, rfl, h⟩)))
  | writeWord e w => cases h; exact .inr (.inr (.inr (.inr (.inl ⟨e, w, rfl, rfl⟩))))
  | writeLen e l => cases h; exact .inr (.inr (.inr (.inr (.inr (.inl ⟨e, l, rfl, rfl⟩)))))
  | read e => exact .inr (.inr (.inr (.inr (.inr (.inr (.inl ⟨e, rfl, h⟩))))))
  | copyByte dst src => exact .inr (.inr (.inr (.inr (.inr (.inr (.inr ⟨dst, src, rfl, h⟩))))))
  | readCmd => cases h

end Sys2Proof.Machine
end

