-- ==== Sys2Proof/Tests/Slice0.lean ====
section
/-! SUPPORT. Tests: expected values are those printed in 95_test_vectors.md, or bits written out from 30_encoding.md R71 to
R73. Then, for every statement with hypotheses, a witness that meets them. -/

namespace Sys2Proof.Tests

open Sys2Proof.Machine Sys2Proof.Claims

/-! ### Helpers -/

/-- The command goes on and the state it leaves has the property. -/
def goesOn (r : Result) (p : State → Bool) : Bool :=
  match r with
  | .next t => p t
  | .fault _ => false
  | .refused _ => false

/-- The command is refused for this reason. -/
def refusedFor (r : Result) (x : Refusal) : Bool :=
  match r with
  | .next _ => false
  | .fault _ => false
  | .refused y => decide (y = x)

/-- The machine faults for this reason. -/
def faultsWith (r : Result) (x : Fault) : Bool :=
  match r with
  | .next _ => false
  | .fault y => decide (y = x)
  | .refused _ => false

/-- MSG_MAX of the tests (95_test_vectors.md L2-X1). -/
def max1024 : Fin (2 ^ 61) := ⟨1024, by decide⟩

/-- After RESET. -/
def fresh : State := State.resetWith max1024

/-- The key and plaintext of L1-1. -/
def keyA : Vector Byte 16 := #v[0x01, 0x23, 0x45, 0x67, 0x89, 0xab, 0xcd, 0xef, 0xfe, 0xdc, 0xba, 0x98, 0x76, 0x54, 0x32, 0x10]

/-- The round keys of L2-K1. -/
def rkA : Vector Word 32 :=
  #v[0xf12186f9, 0x41662b61, 0x5a6ab19a, 0x7ba92077, 0x367360f4, 0x776a0c61, 0xb6bb89b3, 0x24763151,
    0xa520307c, 0xb7584dbd, 0xc30753ed, 0x7ee55b57, 0x6988608c, 0x30d895b7, 0x44ba14af, 0x104495a1,
    0xd120b428, 0x73b55fa3, 0xcc874966, 0x92244439, 0xe89e641f, 0x98ca015a, 0xc7159060, 0x99e1fd2e,
    0xb79bd80c, 0x1d2115b0, 0x0e228aeb, 0xf1780c81, 0x428d3654, 0x62293496, 0x01cf72e5, 0x9124a012]

/-- The padded block of "abc" (L2-P3). -/
def blockAbc : Vector Byte 64 := Vector.ofFn fun i =>
  if i.val = 0 then 0x61 else if i.val = 1 then 0x62 else if i.val = 2 then 0x63 else if i.val = 3 then 0x80
  else if i.val = 63 then 0x18 else 0

/-- A buffer that holds three bytes. -/
def three (a b c : Byte) : Memory := [(0, a), (1, b), (2, c)]

/-- Every operand written: the key of L1-1, the message "abc", the four messages of L2-Q1. -/
def demo : State := { fresh with
  swIn := .written 0x00010203
  key := writtenAll keyA
  rk := writtenAll rkA
  blkIn := writtenAll keyA
  v := writtenAll Config.IV
  hb := writtenAll blockAbc
  mlen := .written 3
  msg := three 0x61 0x62 0x63
  ml4 := Vector.replicate 4 (.written 3)
  msg4 := #v[three 0x61 0x62 0x63, three 0x61 0x62 0x64, three 0x78 0x79 0x7a, three 0 0 0] }

/-! ### Well-formedness: an ill-formed word for each check, which the check refuses -/

theorem test_wellFormed_unit_refuses : unitAssigned 0x40 = false ∧ commandWordWellFormed 0x40 = false := by decide
theorem test_wellFormed_function_refuses :
    functionAssigned 0x01 = false ∧ functionAssigned 0x11 = false ∧ functionAssigned 0x14 = false ∧
    functionAssigned 0x25 = false ∧ functionAssigned 0x31 = false ∧ commandWordWellFormed 0x31 = false := by decide
theorem test_wellFormed_accepts :
    [0x00, 0x10, 0x12, 0x13, 0x20, 0x21, 0x22, 0x23, 0x24, 0x30].all commandWordWellFormed = true ∧
    Instr.wellFormed .subw = true := by decide
theorem test_wellFormed_counts :
    ((List.range 256).filter fun n => commandWordWellFormed (BitVec.ofNat 8 n)).length = 10 := by decide +kernel

/-! ### Decoding: the ten words bit by bit, unit then fn (30_encoding.md R71 to R73) -/

theorem test_decode_subw : decode 0b0000_0000 = .ok .subw := by decide
theorem test_decode_kexp : decode 0b0001_0000 = .ok .kexp := by decide
theorem test_decode_enc : decode 0b0001_0010 = .ok .enc := by decide
theorem test_decode_dec : decode 0b0001_0011 = .ok .dec := by decide
theorem test_decode_pad : decode 0b0010_0000 = .ok .pad := by decide
theorem test_decode_hinit : decode 0b0010_0001 = .ok .hinit := by decide
theorem test_decode_hblk : decode 0b0010_0010 = .ok .hblk := by decide
theorem test_decode_hdig : decode 0b0010_0011 = .ok .hdig := by decide
theorem test_decode_hash : decode 0b0010_0100 = .ok .hash := by decide
theorem test_decode_hash4 : decode 0b0011_0000 = .ok .hash4 := by decide
/-- The reserved words of L2-X1, among them 0x11: bit 0 is a direction only after 0001 001. -/
theorem test_decode_reserved :
    decode 0x01 = .error .reservedFunction ∧ decode 0x11 = .error .reservedFunction ∧
    decode 0x14 = .error .reservedFunction ∧ decode 0x25 = .error .reservedFunction ∧
    decode 0x31 = .error .reservedFunction ∧ decode 0x40 = .error .reservedUnit ∧
    decode 0xff = .error .reservedUnit ∧ decodeBytes [] = .error .noCommandByte := by decide
/-- The encoding of program L3-5 is `10 24 12 00`. -/
theorem test_encode_stream : encodeStream [.kexp, .hash, .enc, .subw] = [0x10, 0x24, 0x12, 0x00] := by decide

/-! ### Commands, on the spec's vectors -/

/-- L2-S1. -/
theorem test_subw : goesOn (exec .subw demo) (fun t => t.swOut = .written 0xd690e9fe) = true := by decide +kernel
/-- L2-S1: only byte 0 differs. -/
theorem test_subw_low_byte :
    goesOn (exec .subw { demo with swIn := .written 0x000000ff }) (fun t => t.swOut = .written 0xd6d6d648) = true := by
  decide +kernel
/-- L2-K1. -/
theorem test_kexp : goesOn (exec .kexp { demo with rk := fresh.rk }) (fun t => t.rk = writtenAll rkA) = true := by
  decide +kernel
/-- L1-1, the document's known answer. -/
theorem test_enc : goesOn (exec .enc demo) (fun t =>
    t.blkOut = writtenAll #v[0x68, 0x1e, 0xdf, 0x34, 0xd2, 0x06, 0x96, 0x5e, 0x86, 0xb3, 0xe9, 0x4f, 0x53, 0x6e, 0x42, 0x46]) = true := by decide +kernel
/-- L2-C4: host-written zero round keys. -/
theorem test_enc_host_keys :
    goesOn (exec .enc { demo with rk := Vector.replicate 32 (.written 0), blkIn := Vector.replicate 16 (.written 0) })
      (fun t => t.blkOut = writtenAll #v[0x76, 0x76, 0x76, 0x76, 0x6d, 0x6d, 0x6d, 0x6d, 0x18, 0x18, 0x18, 0x18, 0x39, 0x39, 0x39, 0x39]) = true := by
  decide +kernel
/-- L2-C5: the direction matters on the same input. -/
theorem test_dec : goesOn (exec .dec demo) (fun t =>
    t.blkOut = writtenAll #v[0x93, 0x38, 0x37, 0x5e, 0x82, 0xee, 0xc1, 0xcb, 0xbe, 0xf6, 0x5e, 0xdf, 0x87, 0x57, 0xa6, 0x31]) = true := by decide +kernel
/-- L1-2. -/
theorem test_dec_known_answer :
    goesOn (exec .dec { demo with
        blkIn := writtenAll #v[0x68, 0x1e, 0xdf, 0x34, 0xd2, 0x06, 0x96, 0x5e, 0x86, 0xb3, 0xe9, 0x4f, 0x53, 0x6e, 0x42, 0x46] })
      (fun t => t.blkOut = writtenAll keyA) = true := by decide +kernel
/-- L2-P3. -/
theorem test_pad : goesOn (exec .pad demo) (fun t => t.plen = .written 64 &&
    (List.finRange 64).all (fun i => t.pmsg.read i.val = .written blockAbc[i]) && t.pmsg.read 64 = .unwritten) = true := by
  decide +kernel
/-- L2-P5: 56 bytes take two blocks; the length 448 bits is 01 c0. -/
theorem test_pad_two_blocks :
    goesOn (exec .pad { demo with mlen := .written 56, msg := Memory.writeBytes [] 0 (List.replicate 56 0x61) })
      (fun t => t.plen = .written 128 && t.pmsg.read 55 = .written 0x61 && t.pmsg.read 56 = .written 0x80 &&
        t.pmsg.read 57 = .written 0 && t.pmsg.read 125 = .written 0 && t.pmsg.read 126 = .written 0x01 &&
        t.pmsg.read 127 = .written 0xc0) = true := by decide +kernel
/-- 10_state.md R25 (L2-X1: accepted when fresh). -/
theorem test_hinit : goesOn (exec .hinit fresh) (fun t =>
    t.v[0] = .written 0x7380166f && t.v[7] = .written 0xb0fb0e4e) = true := by decide +kernel
/-- L2-H2. -/
theorem test_hblk : goesOn (exec .hblk demo) (fun t =>
    t.v = writtenAll #v[0x66c7f0f4, 0x62eeedd9, 0xd1f2d46b, 0xdc10e4e2, 0x4167c487, 0x5cf2f7a2, 0x297da02b, 0x8f4ba8e0]) = true := by
  decide +kernel
/-- L3-6: the digest of IV itself. -/
theorem test_hdig : goesOn (exec .hdig demo) (fun t => t.dig = writtenAll (Vector.ofFn fun i : Fin 32 =>
    ([0x73, 0x80, 0x16, 0x6f, 0x49, 0x14, 0xb2, 0xb9, 0x17, 0x24, 0x42, 0xd7, 0xda, 0x8a, 0x06, 0x00,
    0xa9, 0x6f, 0x30, 0xbc, 0x16, 0x31, 0x38, 0xaa, 0xe3, 0x8d, 0xee, 0x4d, 0xb0, 0xfb, 0x0e, 0x4e] : List Byte).getD i.val 0)) = true := by decide +kernel
/-- L1-3. -/
theorem test_hash : goesOn (exec .hash demo) (fun t => t.dig = writtenAll (Vector.ofFn fun i : Fin 32 =>
    ([0x66, 0xc7, 0xf0, 0xf4, 0x62, 0xee, 0xed, 0xd9, 0xd1, 0xf2, 0xd4, 0x6b, 0xdc, 0x10, 0xe4, 0xe2,
    0x41, 0x67, 0xc4, 0x87, 0x5c, 0xf2, 0xf7, 0xa2, 0x29, 0x7d, 0xa0, 0x2b, 0x8f, 0x4b, 0xa8, 0xe0] : List Byte).getD i.val 0)) = true := by decide +kernel
/-- L2-H5: the empty message, MSG wholly unwritten. -/
theorem test_hash_empty : goesOn (exec .hash { fresh with mlen := .written 0 }) (fun t =>
    t.dig = writtenAll (Vector.ofFn fun i : Fin 32 =>
    ([0x1a, 0xb2, 0x1d, 0x83, 0x55, 0xcf, 0xa1, 0x7f, 0x8e, 0x61, 0x19, 0x48, 0x31, 0xe8, 0x1a, 0x8f,
    0x22, 0xbe, 0xc8, 0xc7, 0x28, 0xfe, 0xfb, 0x74, 0x7e, 0xd0, 0x35, 0xeb, 0x50, 0x82, 0xaa, 0x2b] : List Byte).getD i.val 0)) = true := by decide +kernel
/-- L2-Q1: first word and last byte of each lane. -/
theorem test_hash4 : goesOn (exec .hash4 demo) (fun t =>
    t.dig4[0][0] = .written 0x66 && t.dig4[0][31] = .written 0xe0 &&
    t.dig4[1][0] = .written 0x0d && t.dig4[1][31] = .written 0x0c &&
    t.dig4[2][0] = .written 0x86 && t.dig4[2][31] = .written 0xb6 &&
    t.dig4[3][0] = .written 0x18 && t.dig4[3][31] = .written 0xde) = true := by decide +kernel

/-! ### Refusals: rows of L2-X1 -/

theorem test_refusals_fresh :
    [Instr.subw, .kexp, .enc, .dec, .pad, .hblk, .hdig, .hash, .hash4].all
      (fun i => refusedFor (exec i fresh) .unwrittenOperand) = true := by decide +kernel
theorem test_refusal_last_element :
    refusedFor (exec .kexp { demo with key := (writtenAll keyA).set 15 .unwritten }) .unwrittenOperand = true ∧
    refusedFor (exec .enc { demo with rk := (writtenAll rkA).set 31 .unwritten }) .unwrittenOperand = true ∧
    refusedFor (exec .hash { demo with msg := [(0, 0x61), (1, 0x62)] }) .unwrittenOperand = true := by decide +kernel
theorem test_refusal_length :
    refusedFor (exec .hash { demo with mlen := .written 1025 }) .lengthOutOfRange = true ∧
    refusedFor (exec .pad { demo with mlen := .written (BitVec.ofNat 64 (2 ^ 61)) }) .lengthOutOfRange = true ∧
    refusedFor (exec .hash { demo with mlen := .written (BitVec.ofNat 64 (2 ^ 64 - 1)) }) .lengthOutOfRange = true ∧
    refusedFor (exec .hash { demo with mlen := .written 1024 }) .unwrittenOperand = true := by decide +kernel
theorem test_refusal_lanes :
    refusedFor (exec .hash4 { fresh with ml4 := #v[.written 3, .written 3, .written 3, .written 4] })
      .laneLengthMismatch = true ∧
    refusedFor (exec .hash4 { fresh with ml4 := #v[.written 3, .written 3, .written 3, .written 2000] })
      .lengthOutOfRange = true ∧
    refusedFor (exec .hash4 { fresh with ml4 := #v[.written 3, .written 3, .written 3, .unwritten] })
      .unwrittenOperand = true := by decide +kernel
/-- A length within MSG_MAX but a message byte missing, and a reserved code, in one step each: the machine goes on. -/
theorem test_step_absorbs_refusal :
    goesOn (step { fresh with script := [.cmd 0x11] }) (fun t => t.refusal = some .illegalCommand && t.script = []) = true ∧
    goesOn (step { fresh with script := [.cmd 0x21] }) (fun t => t.refusal = none && t.v[0] = .written 0x7380166f) = true := by
  decide +kernel
theorem test_fetch_word_runs_first :
    goesOn (step (State.reset.withFetchWord 8 0x21)) (fun t => t.v[1] = .written 0x4914b2b9 && t.script = []) = true := by
  decide +kernel
theorem test_rotl32 : rotl32 0x80000001 1 = 0x00000003 ∧ rotl32 0x12345678 13 = 0x8acf0246 ∧
    rotl32 0x12345678 0 = 0x12345678 := by decide
theorem test_boolean_functions :
    ff 15 0xf0f0f0f0 0xcccccccc 0xaaaaaaaa = 0x96969696 ∧ ff 16 0xf0f0f0f0 0xcccccccc 0xaaaaaaaa = 0xe8e8e8e8 ∧
    gg 15 0xf0f0f0f0 0xcccccccc 0xaaaaaaaa = 0x96969696 ∧ gg 16 0xf0f0f0f0 0xcccccccc 0xaaaaaaaa = 0xcacacaca := by decide

/-! ### Witnesses: a state and operands that meet the hypotheses of each statement -/

theorem demo_key : Holds demo.key keyA := fun _ h => getElem_writtenAll _ h
theorem demo_rk : Holds demo.rk rkA := fun _ h => getElem_writtenAll _ h
theorem demo_blkIn : Holds demo.blkIn keyA := fun _ h => getElem_writtenAll _ h
theorem demo_v : Holds demo.v Config.IV := fun _ h => getElem_writtenAll _ h
theorem demo_hb : Holds demo.hb blockAbc := fun _ h => getElem_writtenAll _ h
/-- The message of `demo`. -/
def abc : List Byte := [0x61, 0x62, 0x63]
/-- The lane messages of `demo`. -/
def lanes : Vector (List Byte) 4 := #v[[0x61, 0x62, 0x63], [0x61, 0x62, 0x64], [0x78, 0x79, 0x7a], [0, 0, 0]]
theorem demo_msg : demo.mlen = .written 3 ∧ (3 : Len).toNat ≤ demo.msgMax.val ∧ abc.length = (3 : Len).toNat ∧
    HoldsMessage demo.msg abc := by unfold HoldsMessage; decide +kernel
theorem demo_lanes : (∀ k : Fin 4, demo.ml4[k] = .written 3) ∧ (3 : Len).toNat ≤ demo.msgMax.val ∧
    ∀ k : Fin 4, lanes[k].length = (3 : Len).toNat ∧ HoldsMessage demo.msg4[k] lanes[k] := by
  unfold HoldsMessage; decide +kernel

theorem witness_StepRunsTheDecodedCommand :
    (∃ s : State, s.script = .cmd 0x21 :: [] ∧ decode 0x21 = .ok .hinit) ∧ decodeTableWord 8 0x21 = some .hinit :=
  ⟨⟨{ fresh with script := [.cmd 0x21] }, rfl, by decide⟩, by decide⟩
theorem witness_RefusedCommandOnlySetsTheMark :
    (∃ s : State, s.script = .cmd 0x40 :: [] ∧ issue 0x40 { s with script := [] } = .refused .illegalCommand) ∧
    ∃ s : State, s.script = .cmd 0x12 :: [] ∧ issue 0x12 { s with script := [] } = .refused .unwrittenOperand :=
  ⟨⟨{ fresh with script := [.cmd 0x40] }, rfl, rfl⟩, ⟨{ fresh with script := [.cmd 0x12] }, rfl, rfl⟩⟩
theorem witness_NoActionLeavesTheBlockIdle : ∃ s : State, s.script = [] := ⟨fresh, rfl⟩
theorem witness_SubwSubstitutesEachByte :
    demo.swIn = .written 0x00010203 ∧ fresh.swIn = .unwritten := ⟨rfl, rfl⟩
theorem witness_KexpWritesTheRoundKeys : Holds demo.key keyA ∧ SomeUnwritten fresh.key :=
  ⟨demo_key, 15, by decide, rfl⟩
theorem witness_EncEncryptsTheBlock :
    (Holds demo.blkIn keyA ∧ Holds demo.rk rkA) ∧ SomeUnwritten fresh.blkIn ∧
    ∃ s : State, Holds s.blkIn keyA ∧ SomeUnwritten s.rk :=
  ⟨⟨demo_blkIn, demo_rk⟩, ⟨0, by decide, rfl⟩, { demo with rk := fresh.rk }, demo_blkIn, 31, by decide, rfl⟩
theorem witness_DecDecryptsTheBlock :
    (Holds demo.blkIn keyA ∧ Holds demo.rk rkA) ∧ SomeUnwritten fresh.blkIn ∧
    ∃ s : State, Holds s.blkIn keyA ∧ SomeUnwritten s.rk := witness_EncEncryptsTheBlock
theorem witness_DecIsEncUnderReversedKeys : Holds demo.blkIn keyA ∧ Holds demo.rk rkA := ⟨demo_blkIn, demo_rk⟩
theorem witness_DecryptionInvertsEncryption : Holds demo.blkIn keyA ∧ Holds demo.rk rkA := ⟨demo_blkIn, demo_rk⟩
theorem witness_CipherRoundIsABijection : ∃ (k y0 y1 y2 y3 : Word) (X : Window), cipherRound X k = ⟨y0, y1, y2, y3⟩ :=
  ⟨0, _, _, _, _, ⟨0, 1, 2, 3⟩, rfl⟩
theorem witness_PaddedLengthIsLeastMultiple :
    (∃ n, n % 64 = 0 ∧ 55 + 9 ≤ n) ∧ ∃ L M : Nat, L ≤ M := ⟨⟨64, by decide⟩, 55, 56, by decide⟩
theorem witness_PadWritesThePaddedMessage :
    (demo.mlen = .written 3 ∧ (3 : Len).toNat ≤ demo.msgMax.val ∧ abc.length = (3 : Len).toNat ∧
      HoldsMessage demo.msg abc) ∧ 63 < paddedLength 3 ∧ paddedLength 3 ≤ 64 := ⟨demo_msg, by decide⟩
/-- The clauses of `paddedByte` where they meet: L - 1, L, L + 1, the last zero, the first and last length byte, for the
lengths 55 (no zero byte) and 56 (two blocks); values of L2-P4 and L2-P5. -/
theorem witness_paddedByte_clauses :
    (paddedLength 55 = 64 ∧ (List.range 11).map (fun t => paddedByte (List.replicate 55 0x61) (53 + t)) =
      [0x61, 0x61, 0x80, 0, 0, 0, 0, 0, 0, 0x01, 0xb8]) ∧
    (paddedLength 56 = 128 ∧ paddedByte (List.replicate 56 0x61) 55 = 0x61 ∧
      paddedByte (List.replicate 56 0x61) 56 = 0x80 ∧ paddedByte (List.replicate 56 0x61) 57 = 0 ∧
      paddedByte (List.replicate 56 0x61) 119 = 0 ∧ paddedByte (List.replicate 56 0x61) 120 = 0 ∧
      paddedByte (List.replicate 56 0x61) 126 = 0x01 ∧ paddedByte (List.replicate 56 0x61) 127 = 0xc0) := by
  decide +kernel
theorem witness_PaddingIsInjective :
    ∃ m m' : List Byte, m.length ≤ 2 ^ 61 - 1 ∧ m'.length ≤ 2 ^ 61 - 1 ∧ pad m = pad m' :=
  ⟨abc, abc, by decide, by decide, rfl⟩
theorem witness_BooleanFunctionsAreBitwise : (31 : Nat) < 32 ∧ (15 : Nat) ≤ 15 ∧ (16 : Nat) ≤ 16 := by decide
theorem witness_HblkFoldsOneBlock :
    (Holds demo.v Config.IV ∧ Holds demo.hb blockAbc) ∧ SomeUnwritten fresh.v ∧
    ∃ s : State, Holds s.v Config.IV ∧ SomeUnwritten s.hb :=
  ⟨⟨demo_v, demo_hb⟩, ⟨0, by decide, rfl⟩, { demo with hb := fresh.hb }, demo_v, 63, by decide, rfl⟩
theorem witness_HdigSerialisesTheState : Holds demo.v Config.IV ∧ SomeUnwritten fresh.v :=
  ⟨demo_v, 7, by decide, rfl⟩
theorem witness_HashFoldsThePaddedMessage :
    (demo.mlen = .written 3 ∧ (3 : Len).toNat ≤ demo.msgMax.val ∧ abc.length = (3 : Len).toNat ∧
      HoldsMessage demo.msg abc) ∧
    (0 < paddedLength 3 / 64 ∧ ∀ V : Vector Word 8, ∃ u : State, Holds u.v V ∧ Holds u.hb (paddedBlock abc 0)) :=
  ⟨demo_msg, by decide, fun V => ⟨{ demo with v := writtenAll V, hb := writtenAll (paddedBlock abc 0) },
    fun _ h => getElem_writtenAll _ h, fun _ h => getElem_writtenAll _ h⟩⟩
theorem witness_StreamingEqualsOneShot :
    ∃ s : State, s.mlen = .written 3 ∧ (3 : Len).toNat ≤ s.msgMax.val ∧ abc.length = (3 : Len).toNat ∧
      HoldsMessage s.msg abc ∧ s.refusal = none ∧
      s.script = Script.cmd .pad ++ Script.cmd .hinit
        ++ ((List.range (paddedLength (3 : Len).toNat / 64)).flatMap fun n => Script.cpyHb (64 * n) ++ Script.cmd .hblk)
        ++ Script.cmd .hdig :=
  ⟨{ demo with script := Script.cmd .pad ++ Script.cmd .hinit
      ++ ((List.range (paddedLength (3 : Len).toNat / 64)).flatMap fun n => Script.cpyHb (64 * n) ++ Script.cmd .hblk)
      ++ Script.cmd .hdig }, demo_msg.1, demo_msg.2.1, demo_msg.2.2.1, demo_msg.2.2.2, rfl, rfl⟩
theorem witness_Hash4GivesFourScalarDigests :
    (∀ k : Fin 4, demo.ml4[k] = .written 3) ∧ (3 : Len).toNat ≤ demo.msgMax.val ∧
    ∀ k : Fin 4, lanes[k].length = (3 : Len).toNat ∧ HoldsMessage demo.msg4[k] lanes[k] := demo_lanes
theorem witness_LanesAreIsolated :
    (∀ k : Fin 4, demo.ml4[k] = .written 3) ∧ (3 : Len).toNat ≤ demo.msgMax.val ∧
    ∀ k : Fin 4, lanes[k].length = (3 : Len).toNat ∧ HoldsMessage demo.msg4[k] lanes[k] := demo_lanes
/-- Each of the ten commands goes on from `demo`. -/
theorem witness_CommandsChangeOnlyTheirWriteColumns :
    [Instr.subw, .kexp, .enc, .dec, .pad, .hinit, .hblk, .hdig, .hash, .hash4].all
      (fun i => goesOn (exec i demo) fun _ => true) = true := by decide +kernel
/-- Two different states that agree on every read column: beyond the lengths and in the results they differ. -/
theorem witness_ResultsDependOnlyOnOperands :
    ∃ s s' : State, s.msgMax = s'.msgMax ∧ s.swIn = s'.swIn ∧ s.key = s'.key ∧ s.blkIn = s'.blkIn ∧ s.rk = s'.rk ∧
      s.v = s'.v ∧ s.hb = s'.hb ∧ s.mlen = s'.mlen ∧ s.ml4 = s'.ml4 ∧ s.mlen = .written 3 ∧
      (∀ a < 3, s.msg.read a = s'.msg.read a) ∧ (∀ k : Fin 4, ∀ a < 3, (s.msg4[k]).read a = (s'.msg4[k]).read a) ∧
      s.msg.read 3 ≠ s'.msg.read 3 ∧ s.dig[0] ≠ s'.dig[0] :=
  ⟨demo, { demo with msg := [(0, 0x61), (1, 0x62), (2, 0x63), (3, 0xff)], dig := Vector.replicate 32 (.written 0) },
    rfl, rfl, rfl, rfl, rfl, rfl, rfl, rfl, rfl, rfl, by decide +kernel, fun _ _ _ => rfl, by decide +kernel, by decide⟩
/-- For every operand register, a step that changes it. -/
theorem witness_OperandsChangeOnlyByTheirWriters :
    goesOn (step { fresh with script := [.writeByte (.key 15) 1] }) (fun t => t.key ≠ fresh.key) = true ∧
    goesOn (step { fresh with script := [.copyByte (.blkIn 15) (.hb 0)] }) (fun t => t.blkIn ≠ fresh.blkIn) = true ∧
    goesOn (step { fresh with script := [.writeByte (.hb 63) 1] }) (fun t => t.hb ≠ fresh.hb) = true ∧
    goesOn (step { fresh with script := [.writeWord .swIn 1] }) (fun t => t.swIn ≠ fresh.swIn) = true ∧
    goesOn (step { fresh with script := [.writeLen .mlen 3] }) (fun t => t.mlen ≠ fresh.mlen) = true ∧
    goesOn (step { fresh with script := [.writeLen (.ml4 3) 3] }) (fun t => t.ml4 ≠ fresh.ml4) = true ∧
    goesOn (step { fresh with script := [.writeByte (.buf .msg 1023) 1] }) (fun t => t.msg ≠ fresh.msg) = true ∧
    goesOn (step { fresh with script := [.writeByte (.buf (.msg4 3) 0) 1] }) (fun t => t.msg4 ≠ fresh.msg4) = true ∧
    goesOn (step { fresh with script := [.writeWord (.rk 31) 1] }) (fun t => t.rk ≠ fresh.rk) = true ∧
    goesOn (step { fresh with script := [.cmd 0x21] }) (fun t => t.v ≠ fresh.v) = true ∧
    goesOn (step { demo with rk := fresh.rk, script := [.cmd 0x10] }) (fun t => t.rk ≠ fresh.rk) = true := by decide +kernel
theorem witness_RefusalReasonsAreClosed :
    ([Instr.subw, .kexp, .enc, .dec, .hblk, .hdig].all fun i => refusedFor (exec i fresh) .unwrittenOperand) = true ∧
    refusedFor (exec .pad { demo with mlen := .written 1025 }) .lengthOutOfRange = true ∧
    refusedFor (exec .hash4 { demo with ml4 := #v[.written 3, .written 3, .written 3, .written 4] })
      .laneLengthMismatch = true ∧
    refusedFor (issue 0xff fresh) .illegalCommand = true := by decide +kernel
/-- The bound itself is in range, one more is not; both sides of the equality. -/
theorem witness_LengthOutOfRangeExactly :
    refusedFor (exec .pad { demo with mlen := .written 1025 }) .lengthOutOfRange = true ∧
    refusedFor (exec .pad { demo with mlen := .written 1024 }) .lengthOutOfRange = false ∧
    refusedFor (exec .hash4 { demo with ml4 := #v[.written 1025, .written 3, .written 3, .written 3] })
      .lengthOutOfRange = true := by decide +kernel
/-- A register element, a length, a message byte, a lane's byte. -/
theorem witness_UnwrittenOperandIsRefusedExactly :
    SomeUnwritten fresh.key ∧ fresh.mlen = .unwritten ∧ SomeUnwritten fresh.ml4 ∧
    refusedFor (exec .pad { demo with msg := [(0, 0x61), (1, 0x62)] }) .unwrittenOperand = true ∧
    refusedFor (exec .hash4 { demo with msg4 := #v[demo.msg, demo.msg, demo.msg, [(0, 0), (2, 0)]] })
      .unwrittenOperand = true ∧
    refusedFor (exec .hash4 demo) .unwrittenOperand = false :=
  ⟨⟨15, by decide, rfl⟩, rfl, ⟨3, by decide, rfl⟩, by decide +kernel⟩
theorem witness_LaneLengthMismatchExactly :
    (∃ s : State, ∃ L : Vector Len 4, Holds s.ml4 L ∧ (∀ k : Fin 4, L[k].toNat ≤ s.msgMax.val) ∧
      ¬(L[0] = L[1] ∧ L[1] = L[2] ∧ L[2] = L[3])) ∧ refusedFor (exec .hash4 demo) .laneLengthMismatch = false :=
  ⟨⟨{ demo with ml4 := writtenAll #v[1024, 1024, 1024, 0] }, #v[1024, 1024, 1024, 0],
    fun _ h => getElem_writtenAll _ h, by decide +kernel⟩, by decide +kernel⟩
theorem witness_ReservedCodesAreIllegal :
    reservedCode 0x01 ∧ reservedCode 0x0f ∧ reservedCode 0x11 ∧ reservedCode 0x14 ∧ reservedCode 0x1f ∧
    reservedCode 0x25 ∧ reservedCode 0x2f ∧ reservedCode 0x31 ∧ reservedCode 0xff ∧
    ¬reservedCode 0x00 ∧ ¬reservedCode 0x10 ∧ ¬reservedCode 0x12 ∧ ¬reservedCode 0x13 ∧ ¬reservedCode 0x20 ∧
    ¬reservedCode 0x24 ∧ ¬reservedCode 0x30 := by unfold reservedCode; omega
theorem witness_ResetEventReturnsToReset : ∃ s : State, s.script = .reset :: [] ∧ s.isWritten (.word .swIn) = true :=
  ⟨{ demo with script := [.reset] }, rfl, rfl⟩
/-- The last byte of MSG and of PMSG exist, the ones after them do not. -/
theorem witness_ByteExists : ByteExists demo (.buf .msg 1023) ∧ ¬ByteExists demo (.buf .msg 1024) ∧
    ByteExists demo (.buf .pmsg 1087) ∧ ¬ByteExists demo (.buf .pmsg 1088) ∧ ByteExists demo (.dig4 3 31) := by
  refine ⟨?_, fun h => absurd (h _ _ rfl) (by decide +kernel), ?_, fun h => absurd (h _ _ rfl) (by decide +kernel), ?_⟩
  · rintro S a h; cases h; decide +kernel
  · rintro S a h; cases h; decide +kernel
  · rintro S a h; cases h
theorem witness_HostWritesStoreOneElement :
    goesOn (step { demo with script := [.writeByte (.buf .msg 1023) 7] }) (fun t => t.msg.read 1023 = .written 7) = true ∧
    goesOn (step { demo with script := [.writeWord .swOut 7] }) (fun t => t.swOut = .written 7) = true ∧
    goesOn (step { demo with script := [.writeLen .plen 7] }) (fun t => t.plen = .written 7) = true := by decide +kernel
/-- A written element, and an unwritten one, of each width. -/
theorem witness_HostReadsChangeNoState :
    goesOn (step { demo with script := [.read (.byte (.key 0))] }) (fun t => t.reads = [.byte 0x01]) = true ∧
    goesOn (step { demo with script := [.read (.word .swIn)] }) (fun t => t.reads = [.word 0x00010203]) = true ∧
    goesOn (step { demo with script := [.read (.len .mlen)] }) (fun t => t.reads = [.len 3]) = true ∧
    demo.byteAt (.dig 0) = .unwritten ∧ demo.wordAt .swOut = .unwritten ∧ demo.lenAt .plen = .unwritten := by
  decide +kernel
theorem witness_HostCopyMovesOneByte :
    goesOn (step { demo with script := [.copyByte (.hb 63) (.buf .msg 2)] })
      (fun t => t.hb[63] = .written 0x63 && t.reads = [.byte 0x63]) = true := by decide +kernel
theorem witness_OnlyImpossibleHostAccessesFault :
    faultsWith (step { demo with script := [.writeByte (.buf .msg 1024) 7] }) (.noSuchByte .msg 1024) = true ∧
    faultsWith (step { demo with script := [.read (.byte (.buf .pmsg 1088))] }) (.noSuchByte .pmsg 1088) = true ∧
    faultsWith (step { demo with script := [.copyByte (.hb 0) (.buf .pmsg 1088)] }) (.noSuchByte .pmsg 1088) = true ∧
    faultsWith (step { demo with script := [.copyByte (.buf .msg 1024) (.hb 0)] }) (.noSuchByte .msg 1024) = true ∧
    faultsWith (step { demo with script := [.readCmd] }) .commandRegisterRead = true := by decide +kernel
theorem demo_inv : demo.inv := by
  intro S
  cases S with
  | msg => decide +kernel
  | pmsg => decide +kernel
  | msg4 k => revert k; decide +kernel
/-- A state with the invariant from which PAD steps. -/
theorem witness_EveryStepKeepsBuffersCanonical :
    ({ demo with script := [.cmd 0x20] } : State).inv ∧
    goesOn (step { demo with script := [.cmd 0x20] }) (fun t => t.plen = .written 64) = true :=
  ⟨demo_inv, by decide +kernel⟩
theorem witness_WrittenElementsStayWrittenUntilReset :
    ∃ s : State, s.script.head? ≠ some .reset ∧ s.isWritten (.byte (.key 15)) = true ∧
      goesOn (step s) (fun _ => true) = true :=
  ⟨{ demo with script := [.cmd 0x21] }, by decide +kernel⟩
/-- A set mark that stays, and a clear one that a refused command sets. -/
theorem witness_RefusalMarkIsSticky :
    goesOn (step { fresh with refusal := some .illegalCommand, script := [.cmd 0x12] })
      (fun t => t.refusal = some .illegalCommand) = true ∧
    goesOn (step { fresh with script := [.cmd 0x12] }) (fun t => t.refusal = some .unwrittenOperand) = true := by
  decide +kernel

end Sys2Proof.Tests
end

section
/-! SUPPORT. The family of 10_state.md: first one rule for each operation of the state (what it stores, what it leaves), then
what a command and a host action that go on have done, then the statements about frames, operands, reads and RESET. -/

namespace Sys2Proof.Machine

open Sys2Proof.Claims

/-! ### Written elements -/

@[simp] theorem Slot.isWritten_written {α : Type} (v : α) : (Slot.written v).isWritten = true := rfl
@[simp] theorem Slot.isWritten_unwritten {α : Type} : (Slot.unwritten : Slot α).isWritten = false := rfl

@[simp] theorem State.isWritten_byte (s : State) (e : ByteElem) : s.isWritten (.byte e) = (s.byteAt e).isWritten := rfl
@[simp] theorem State.isWritten_word (s : State) (e : WordElem) : s.isWritten (.word e) = (s.wordAt e).isWritten := rfl
@[simp] theorem State.isWritten_len (s : State) (e : LenElem) : s.isWritten (.len e) = (s.lenAt e).isWritten := rfl

/-! ### Range reads and the padded length -/

theorem be64_length (n : Nat) : (be64 n).length = 8 := by simp [be64]

theorem pad_length (m : List Byte) : (pad m).length = padlen m.length := by
  simp only [pad, padlen, List.length_append, List.length_cons, List.length_nil, List.length_replicate, be64_length]
  omega

theorem Memory.length_of_readBytes {m : Memory} {a n : Nat} {bs : List Byte} (h : m.readBytes a n = some bs) :
    bs.length = n :=
  ((m.readBytes_eq_some n a bs).mp h).1

/-- A range read depends only on the bytes of the range. -/
theorem Memory.readBytes_congr {m m' : Memory} : ∀ {n a : Nat}, (∀ i < n, m.read (a + i) = m'.read (a + i)) →
    m.readBytes a n = m'.readBytes a n
  | 0, _, _ => rfl
  | n + 1, a, h => by
    have hhead : m.read a = m'.read a := h 0 (by omega)
    have htail : m.readBytes (a + 1) n = m'.readBytes (a + 1) n :=
      Memory.readBytes_congr fun i hi => by
        have hi := h (i + 1) (by omega)
        rwa [← Nat.add_assoc, Nat.add_right_comm] at hi
    simp only [Memory.readBytes, hhead, htail]

/-! ### One element stored -/

@[simp] theorem State.buffer_setBuffer_same (s : State) (S : Space) (m : Memory) :
    (s.setBuffer S m).buffer S = m := by
  cases S <;> simp [State.buffer, State.setBuffer]

theorem State.buffer_setBuffer_other (s : State) {S S' : Space} (m : Memory) (h : S ≠ S') :
    (s.setBuffer S m).buffer S' = s.buffer S' := by
  cases S with
  | msg4 k =>
    cases S' with
    | msg4 k' =>
      have hk : k.val ≠ k'.val := fun hk => h (congrArg Space.msg4 (Fin.ext hk))
      simp [State.buffer, State.setBuffer, hk]
    | _ => rfl
  | _ => cases S' <;> simp_all [State.buffer, State.setBuffer]

@[simp] theorem State.byteAt_setByte_same (s : State) (e : ByteElem) (b : Byte) :
    (s.setByte e b).byteAt e = .written b := by
  cases e <;> simp [State.setByte, State.byteAt]

theorem State.byteAt_setByte_other (s : State) {e x : ByteElem} (b : Byte) (h : e ≠ x) :
    (s.setByte e b).byteAt x = s.byteAt x := by
  cases e with
  | buf S a =>
    cases x with
    | buf S' a' =>
      by_cases hS : S = S'
      · subst hS
        have ha : a' ≠ a := fun ha => h (by rw [ha])
        simp [State.setByte, State.byteAt, Memory.read_write_other _ _ ha]
      · simp [State.setByte, State.byteAt, State.buffer_setBuffer_other _ _ hS]
    | _ => simp [State.setByte, State.byteAt]
  | dig4 k i =>
    cases x with
    | dig4 k' i' =>
      by_cases hk : k = k'
      · subst hk
        have hi : i.val ≠ i'.val := fun hi => h (by rw [Fin.ext hi])
        simp [State.setByte, State.byteAt, hi]
      · have hk : k.val ≠ k'.val := fun hv => hk (Fin.ext hv)
        simp [State.setByte, State.byteAt, hk]
    | _ => rfl
  | _ => cases x <;> simp_all [State.setByte, State.byteAt, State.buffer, Fin.ext_iff]

theorem sameElements_setByte (s : State) (e : ByteElem) (b : Byte) :
    SameElements s (s.setByte e b) (fun x => x = .byte e) := by
  refine ⟨fun x hx => ?_, fun x _ => ?_, fun x _ => ?_, by simp, by simp⟩
  · exact s.byteAt_setByte_other b fun h => hx (by rw [h])
  · simp [State.wordAt]
  · simp [State.lenAt]

@[simp] theorem State.wordAt_setWord_same (s : State) (e : WordElem) (w : Word) :
    (s.setWord e w).wordAt e = .written w := by
  cases e <;> simp [State.setWord, State.wordAt]

theorem State.wordAt_setWord_other (s : State) {e x : WordElem} (w : Word) (h : e ≠ x) :
    (s.setWord e w).wordAt x = s.wordAt x := by
  cases e <;> cases x <;> simp_all [State.setWord, State.wordAt, Fin.ext_iff]

theorem sameElements_setWord (s : State) (e : WordElem) (w : Word) :
    SameElements s (s.setWord e w) (fun x => x = .word e) := by
  refine ⟨fun x _ => ?_, fun x hx => ?_, fun x _ => ?_, by simp, by simp⟩
  · simp [State.byteAt, State.buffer]
  · exact s.wordAt_setWord_other w fun h => hx (by rw [h])
  · simp [State.lenAt]

@[simp] theorem State.lenAt_setLen_same (s : State) (e : LenElem) (l : Len) :
    (s.setLen e l).lenAt e = .written l := by
  cases e <;> simp [State.setLen, State.lenAt]

theorem State.lenAt_setLen_other (s : State) {e x : LenElem} (l : Len) (h : e ≠ x) :
    (s.setLen e l).lenAt x = s.lenAt x := by
  cases e <;> cases x <;> simp_all [State.setLen, State.lenAt, Fin.ext_iff]

theorem sameElements_setLen (s : State) (e : LenElem) (l : Len) :
    SameElements s (s.setLen e l) (fun x => x = .len e) := by
  refine ⟨fun x _ => ?_, fun x _ => ?_, fun x hx => ?_, by simp, by simp⟩
  · simp [State.byteAt, State.buffer]
  · simp [State.wordAt]
  · exact s.lenAt_setLen_other l fun h => hx (by rw [h])

/-! ### Results of commands -/

theorem sameElements_putSwOut (s : State) (w : Word) :
    SameElements s (s.putSwOut w) (fun e => e = .word .swOut) := by
  refine ⟨fun _ _ => rfl, fun e he => ?_, fun _ _ => rfl, rfl, rfl⟩
  cases e with
  | swOut => exact absurd rfl he
  | _ => rfl

theorem sameElements_putRk (s : State) (k : Vector Word 32) :
    SameElements s (s.putRk k) (fun e => ∃ i, e = .word (.rk i)) := by
  refine ⟨fun e _ => by simp [State.byteAt, State.buffer], fun e he => ?_, fun e _ => by simp [State.lenAt],
    by simp, by simp⟩
  cases e with
  | rk i => exact absurd ⟨i, rfl⟩ he
  | _ => simp [State.wordAt]

theorem sameElements_putV (s : State) (x : Vector Word 8) :
    SameElements s (s.putV x) (fun e => ∃ i, e = .word (.v i)) := by
  refine ⟨fun e _ => by simp [State.byteAt, State.buffer], fun e he => ?_, fun e _ => by simp [State.lenAt],
    by simp, by simp⟩
  cases e with
  | v i => exact absurd ⟨i, rfl⟩ he
  | _ => simp [State.wordAt]

theorem sameElements_putBlkOut (s : State) (b : Vector Byte 16) :
    SameElements s (s.putBlkOut b) (fun e => ∃ i, e = .byte (.blkOut i)) := by
  refine ⟨fun e he => ?_, fun e _ => by simp [State.wordAt], fun e _ => by simp [State.lenAt], by simp, by simp⟩
  cases e with
  | blkOut i => exact absurd ⟨i, rfl⟩ he
  | _ => simp [State.byteAt, State.buffer]

theorem sameElements_putDig (s : State) (d : Vector Byte 32) :
    SameElements s (s.putDig d) (fun e => ∃ i, e = .byte (.dig i)) := by
  refine ⟨fun e he => ?_, fun e _ => by simp [State.wordAt], fun e _ => by simp [State.lenAt], by simp, by simp⟩
  cases e with
  | dig i => exact absurd ⟨i, rfl⟩ he
  | _ => simp [State.byteAt, State.buffer]

theorem sameElements_putDig4 (s : State) (d : Vector (Vector Byte 32) 4) :
    SameElements s (s.putDig4 d) (fun e => ∃ k i, e = .byte (.dig4 k i)) := by
  refine ⟨fun e he => ?_, fun e _ => by simp [State.wordAt], fun e _ => by simp [State.lenAt], by simp, by simp⟩
  cases e with
  | dig4 k i => exact absurd ⟨k, i, rfl⟩ he
  | _ => simp [State.byteAt, State.buffer]

/-- PAD's column: PLEN and the bytes of PMSG below the padded length. -/
theorem sameElements_putPadded (s : State) (p : List Byte) :
    SameElements s (s.putPadded p) (fun e => e = .len .plen ∨ ∃ a < p.length, e = .byte (.buf .pmsg a)) := by
  refine ⟨fun e he => ?_, fun _ _ => rfl, fun e he => ?_, rfl, rfl⟩
  · cases e with
    | buf S a =>
      cases S with
      | pmsg =>
        have ha : ¬a < p.length := fun ha => he (.inr ⟨a, ha, rfl⟩)
        simp [State.byteAt, State.buffer, Memory.read_writeBytes, ha]
      | _ => rfl
    | _ => rfl
  · cases e with
    | plen => exact absurd (.inl rfl) he
    | _ => rfl

/-! ### Inversion: what a command that goes on has read and done -/

theorem withMessage_next {s t : State} {k : List Byte → Result} (h : withMessage s k = .next t) :
    ∃ L m, s.mlen = .written L ∧ L.toNat ≤ s.msgMax.val ∧ s.msg.readBytes 0 L.toNat = some m ∧ k m = .next t := by
  rcases withMessage_cases s k with ⟨-, hr⟩ | ⟨L, hL, ⟨-, hr⟩ | ⟨hle, ⟨-, hr⟩ | ⟨m, hm, hk⟩⟩⟩
  · rw [hr] at h; cases h
  · rw [hr] at h; cases h
  · rw [hr] at h; cases h
  · exact ⟨L, m, hL, hle, hm, hk ▸ h⟩

theorem withLanes_next {s t : State} {k : Vector (List Byte) 4 → Result} (h : withLanes s k = .next t) :
    ∃ L m, readAll s.ml4 = some L ∧ L.toList.any (outOfRange s) = false ∧ (L[0] = L[1] ∧ L[1] = L[2] ∧ L[2] = L[3]) ∧
      readLanes s L[0].toNat = some m ∧ k m = .next t := by
  rcases withLanes_cases s k with ⟨-, hr⟩ | ⟨L, hL, ⟨-, hr⟩ | ⟨hin, ⟨-, hr⟩ | ⟨heq, ⟨-, hr⟩ | ⟨m, hm, hk⟩⟩⟩⟩
  · rw [hr] at h; cases h
  · rw [hr] at h; cases h
  · rw [hr] at h; cases h
  · rw [hr] at h; cases h
  · exact ⟨L, m, hL, hin, heq, hm, hk ▸ h⟩

theorem execSubw_next {s t : State} (h : execSubw s = .next t) :
    ∃ w, s.swIn = .written w ∧ t = s.putSwOut (subWord w) := by
  obtain ⟨w, hw, h⟩ := operand_next h
  cases h; exact ⟨w, Slot.get?_eq_some.mp hw, rfl⟩

theorem execKexp_next {s t : State} (h : execKexp s = .next t) :
    ∃ key, readAll s.key = some key ∧ t = s.putRk (keySchedule key) := by
  obtain ⟨key, hkey, h⟩ := operand_next h
  cases h; exact ⟨key, hkey, rfl⟩

theorem cryptCommand_next {d : Bool} {s t : State} (h : cryptCommand d s = .next t) :
    ∃ input rk, readAll s.blkIn = some input ∧ readAll s.rk = some rk ∧ t = s.putBlkOut (crypt input rk d) := by
  obtain ⟨input, hin, h⟩ := operand_next h
  obtain ⟨rk, hrk, h⟩ := operand_next h
  cases h; exact ⟨input, rk, hin, hrk, rfl⟩

theorem execHblk_next {s t : State} (h : execHblk s = .next t) :
    ∃ vin blk, readAll s.v = some vin ∧ readAll s.hb = some blk ∧ t = s.putV (cf vin blk) := by
  obtain ⟨vin, hv, h⟩ := operand_next h
  obtain ⟨blk, hb, h⟩ := operand_next h
  cases h; exact ⟨vin, blk, hv, hb, rfl⟩

theorem execHdig_next {s t : State} (h : execHdig s = .next t) :
    ∃ v, readAll s.v = some v ∧ t = s.putDig (digest v) := by
  obtain ⟨v, hv, h⟩ := operand_next h
  cases h; exact ⟨v, hv, rfl⟩

theorem execPad_next {s t : State} (h : execPad s = .next t) :
    ∃ L m, s.mlen = .written L ∧ L.toNat ≤ s.msgMax.val ∧ s.msg.readBytes 0 L.toNat = some m ∧
      t = s.putPadded (pad m) := by
  obtain ⟨L, m, hL, hle, hm, h⟩ := withMessage_next h
  cases h; exact ⟨L, m, hL, hle, hm, rfl⟩

theorem execHash_next {s t : State} (h : execHash s = .next t) :
    ∃ L m, s.mlen = .written L ∧ L.toNat ≤ s.msgMax.val ∧ s.msg.readBytes 0 L.toNat = some m ∧
      t = s.putDig (sm3Hash m) := by
  obtain ⟨L, m, hL, hle, hm, h⟩ := withMessage_next h
  cases h; exact ⟨L, m, hL, hle, hm, rfl⟩

theorem execHash4_next {s t : State} (h : execHash4 s = .next t) :
    ∃ L m, readAll s.ml4 = some L ∧ L.toList.any (outOfRange s) = false ∧ (L[0] = L[1] ∧ L[1] = L[2] ∧ L[2] = L[3]) ∧
      readLanes s L[0].toNat = some m ∧ t = s.putDig4 (sm3Hash4 m) := by
  obtain ⟨L, m, hL, hin, heq, hm, h⟩ := withLanes_next h
  cases h; exact ⟨L, m, hL, hin, heq, hm, rfl⟩

/-- `t` is `s` with one result written as a whole, the write column of the command (10_state.md R44). -/
inductive WritesColumn (s : State) : Instr → State → Prop
  | swOut (w : Word) : WritesColumn s .subw (s.putSwOut w)
  | rk (k : Vector Word 32) : WritesColumn s .kexp (s.putRk k)
  | blkOut {i : Instr} (hi : i = .enc ∨ i = .dec) (b : Vector Byte 16) : WritesColumn s i (s.putBlkOut b)
  | padded (p : List Byte) : WritesColumn s .pad (s.putPadded p)
  | v {i : Instr} (hi : i = .hinit ∨ i = .hblk) (x : Vector Word 8) : WritesColumn s i (s.putV x)
  | dig {i : Instr} (hi : i = .hdig ∨ i = .hash) (d : Vector Byte 32) : WritesColumn s i (s.putDig d)
  | dig4 (d : Vector (Vector Byte 32) 4) : WritesColumn s .hash4 (s.putDig4 d)

theorem exec_writesColumn {i : Instr} {s t : State} (h : exec i s = .next t) : WritesColumn s i t := by
  cases i with
  | subw => obtain ⟨_, -, rfl⟩ := execSubw_next h; exact .swOut _
  | kexp => obtain ⟨_, -, rfl⟩ := execKexp_next h; exact .rk _
  | enc => obtain ⟨_, _, -, -, rfl⟩ := cryptCommand_next h; exact .blkOut (.inl rfl) _
  | dec => obtain ⟨_, _, -, -, rfl⟩ := cryptCommand_next h; exact .blkOut (.inr rfl) _
  | pad => obtain ⟨_, _, -, -, -, rfl⟩ := execPad_next h; exact .padded _
  | hinit => cases h; exact .v (.inl rfl) _
  | hblk => obtain ⟨_, _, -, -, rfl⟩ := execHblk_next h; exact .v (.inr rfl) _
  | hdig => obtain ⟨_, -, rfl⟩ := execHdig_next h; exact .dig (.inl rfl) _
  | hash => obtain ⟨_, _, -, -, -, rfl⟩ := execHash_next h; exact .dig (.inr rfl) _
  | hash4 => obtain ⟨_, _, -, -, -, -, rfl⟩ := execHash4_next h; exact .dig4 _

/-! ### Inversion: what a host action that goes on has done -/

/-- What the model itself keeps beside the block's registers and buffers: the refusal mark, the values the host has read
and the place in the free values (10_state.md R40, 60_exceptions.md R172). -/
def State.withBookkeeping (s : State) (mark : Option Refusal) (reads : List HostValue) (free : Nat) : State :=
  { s with refusal := mark, reads := reads, freeIndex := free }

/-- The action is a host write of the byte `e` or a host copy to it. -/
def HostAction.storesByte (a : HostAction) (e : ByteElem) : Prop :=
  (∃ b, a = .writeByte e b) ∨ ∃ src, a = .copyByte e src

theorem State.deliver_useFree_eq {α : Type} (s : State) (x : Slot α) (v : HostValue) :
    (s.useFree x).deliver v = s.withBookkeeping s.refusal (v :: s.reads) (s.useFree x).freeIndex := by
  cases x <;> rfl

theorem hostRead_next {s t : State} {e : Elem} (h : hostRead s e = .next t) :
    ∃ rs n, t = s.withBookkeeping s.refusal rs n := by
  cases e with
  | byte e => cases ifByteExists_next h; exact ⟨_, _, s.deliver_useFree_eq _ _⟩
  | word e => cases h; exact ⟨_, _, s.deliver_useFree_eq _ _⟩
  | len e => cases h; exact ⟨_, _, s.deliver_useFree_eq _ _⟩

theorem hostCopy_next {s t : State} {dst src : ByteElem} (h : hostCopy s dst src = .next t) :
    ∃ rs n b, t = (s.withBookkeeping s.refusal rs n).setByte dst b := by
  cases ifByteExists_next (ifByteExists_next h)
  exact ⟨_, _, _, by rw [s.deliver_useFree_eq]⟩

/-- Everything a host action but RESET can do to the registers and buffers: nothing, one command, or one element
stored. -/
theorem perform_next {a : HostAction} {s t : State} (h : perform a s = .next t) (ha : a ≠ .reset) :
    (∃ r rs n, t = s.withBookkeeping r rs n) ∨
    (∃ c i, a = .cmd c ∧ decode c = .ok i ∧ exec i s = .next t) ∨
    (∃ e b r rs n, a.storesByte e ∧ t = (s.withBookkeeping r rs n).setByte e b) ∨
    (∃ e w, a = .writeWord e w ∧ t = s.setWord e w) ∨
    (∃ e l, a = .writeLen e l ∧ t = s.setLen e l) := by
  rcases perform_cases h with ⟨rfl, -⟩ | hc | ⟨c, r, rfl, -, rfl⟩ | ⟨e, b, rfl, h⟩ | hw | hl | ⟨e, rfl, h⟩ |
    ⟨dst, src, rfl, h⟩
  · exact absurd rfl ha
  · exact .inr (.inl hc)
  · exact .inl ⟨_, s.reads, s.freeIndex, rfl⟩
  · cases ifByteExists_next h
    exact .inr (.inr (.inl ⟨e, b, s.refusal, s.reads, s.freeIndex, .inl ⟨b, rfl⟩, rfl⟩))
  · exact .inr (.inr (.inr (.inl hw)))
  · exact .inr (.inr (.inr (.inr hl)))
  · obtain ⟨rs, n, rfl⟩ := hostRead_next h
    exact .inl ⟨_, rs, n, rfl⟩
  · obtain ⟨rs, n, b, rfl⟩ := hostCopy_next h
    exact .inr (.inr (.inl ⟨dst, b, _, rs, n, .inr ⟨src, rfl⟩, rfl⟩))

/-! ### Written elements stay written (10_state.md R40) -/

/-- Every element written in `s` is written in `t`. -/
def State.keepsWritten (s t : State) : Prop := ∀ e : Elem, s.isWritten e = true → t.isWritten e = true

/-- An operation that leaves alone every element but those it writes keeps every written element written. -/
theorem keepsWritten_of_sameElements {s t : State} {but : Elem → Prop} (h : SameElements s t but)
    (hw : ∀ e, but e → t.isWritten e = true) : s.keepsWritten t := by
  obtain ⟨hbyte, hword, hlen, -, -⟩ := h
  intro e he
  by_cases hb : but e
  · exact hw e hb
  · cases e with
    | byte e => simpa [hbyte e hb] using he
    | word e => simpa [hword e hb] using he
    | len e => simpa [hlen e hb] using he

theorem State.keepsWritten_withBookkeeping (s : State) (r : Option Refusal) (rs : List HostValue) (n : Nat) :
    s.keepsWritten (s.withBookkeeping r rs n) := by
  intro e he
  cases e <;> exact he

theorem exec_keepsWritten {i : Instr} {s t : State} (h : exec i s = .next t) : s.keepsWritten t := by
  cases exec_writesColumn h with
  | swOut w =>
    refine keepsWritten_of_sameElements (sameElements_putSwOut s w) ?_
    rintro _ rfl; rfl
  | rk k =>
    refine keepsWritten_of_sameElements (sameElements_putRk s k) ?_
    rintro _ ⟨i, rfl⟩; simp [State.wordAt]
  | blkOut _ b =>
    refine keepsWritten_of_sameElements (sameElements_putBlkOut s b) ?_
    rintro _ ⟨i, rfl⟩; simp [State.byteAt]
  | padded p =>
    refine keepsWritten_of_sameElements (sameElements_putPadded s p) ?_
    rintro _ (rfl | ⟨a, ha, rfl⟩)
    · rfl
    · simp [State.byteAt, State.buffer, Memory.read_writeBytes, ha]
  | v _ x =>
    refine keepsWritten_of_sameElements (sameElements_putV s x) ?_
    rintro _ ⟨i, rfl⟩; simp [State.wordAt]
  | dig _ d =>
    refine keepsWritten_of_sameElements (sameElements_putDig s d) ?_
    rintro _ ⟨i, rfl⟩; simp [State.byteAt]
  | dig4 d =>
    refine keepsWritten_of_sameElements (sameElements_putDig4 s d) ?_
    rintro _ ⟨k, i, rfl⟩; simp [State.byteAt]

theorem perform_keepsWritten {a : HostAction} {s t : State} (h : perform a s = .next t) (ha : a ≠ .reset) :
    s.keepsWritten t := by
  rcases perform_next h ha with ⟨r, rs, n, rfl⟩ | ⟨c, i, -, -, he⟩ | ⟨e, b, r, rs, n, -, rfl⟩ | ⟨e, w, -, rfl⟩ |
    ⟨e, l, -, rfl⟩
  · exact s.keepsWritten_withBookkeeping r rs n
  · exact exec_keepsWritten he
  · have hset : (s.withBookkeeping r rs n).keepsWritten ((s.withBookkeeping r rs n).setByte e b) := by
      refine keepsWritten_of_sameElements (sameElements_setByte _ e b) ?_
      rintro _ rfl; simp
    exact fun x hx => hset x (s.keepsWritten_withBookkeeping r rs n x hx)
  · refine keepsWritten_of_sameElements (sameElements_setWord s e w) ?_
    rintro _ rfl; simp
  · refine keepsWritten_of_sameElements (sameElements_setLen s e l) ?_
    rintro _ rfl; simp

/-- Settles O45: an idle step changes nothing, and every host action but RESET keeps written elements written. -/
theorem writtenElementsStayWrittenUntilReset : Obligations.WrittenElementsStayWrittenUntilReset := by
  intro s t e h hreset he
  rcases step_cases s with ⟨-, hidle⟩ | ⟨a, rest, hs, hstep⟩
  · rw [hidle] at h; cases h; exact he
  · have ha : a ≠ .reset := fun ha => hreset (by rw [hs, ha]; rfl)
    refine perform_keepsWritten (hstep ▸ h) ha e ?_
    cases e <;> exact he

/-- Settles O30: what each command has written as a whole, and PAD stores `padlen L` bytes from offset 0. -/
theorem commandsChangeOnlyTheirWriteColumns : Obligations.CommandsChangeOnlyTheirWriteColumns := by
  intro s t
  refine ⟨fun h => ?_, fun h => ?_, fun h => ?_, fun h => ?_, fun h => ?_, fun h => ?_, fun h => ?_, fun h => ?_,
    fun h => ?_, fun h => ?_⟩
  · obtain ⟨w, -, rfl⟩ := execSubw_next h; rfl
  · obtain ⟨key, -, rfl⟩ := execKexp_next h; rw [State.putRk_rk]; rfl
  · obtain ⟨input, rk, -, -, rfl⟩ := cryptCommand_next h; rw [State.putBlkOut_blkOut]; rfl
  · obtain ⟨input, rk, -, -, rfl⟩ := cryptCommand_next h; rw [State.putBlkOut_blkOut]; rfl
  · obtain ⟨L, m, hL, -, hm, rfl⟩ := execPad_next h
    refine ⟨rfl, L, hL, fun a ha => ?_⟩
    have hout : ¬a < (pad m).length := by rw [pad_length, Memory.length_of_readBytes hm]; omega
    simp [Memory.read_writeBytes, hout]
  · cases h; rw [State.putV_v]; rfl
  · obtain ⟨vin, blk, -, -, rfl⟩ := execHblk_next h; rw [State.putV_v]; rfl
  · obtain ⟨v, -, rfl⟩ := execHdig_next h; rw [State.putDig_dig]; rfl
  · obtain ⟨L, m, -, -, -, rfl⟩ := execHash_next h; rw [State.putDig_dig]; rfl
  · obtain ⟨L, m, -, -, -, -, rfl⟩ := execHash4_next h; rw [State.putDig4_dig4]; rfl

/-! ### Commands depend on their read columns only (10_state.md R44) -/

section SameOutcome

variable {α β : Type} {f : State → β} {s s' : State}

/-- The same operand on both sides: both refuse it, or both go on with its value. -/
theorem sameOutcome_operand {o : Option α} {k k' : α → Result} (h : ∀ x, o = some x → SameOutcome f (k x) (k' x)) :
    SameOutcome f (operand o k) (operand o k') := by
  cases o with
  | none => exact rfl
  | some x => exact h x rfl

theorem outOfRange_congr (hmax : s.msgMax = s'.msgMax) : outOfRange s = outOfRange s' := by
  funext L; simp only [outOfRange, hmax]

theorem sameOutcome_withMessage {k k' : List Byte → Result} (hmax : s.msgMax = s'.msgMax) (hlen : s.mlen = s'.mlen)
    (hmsg : ∀ L : Len, s.mlen = .written L → ∀ a < L.toNat, s.msg.read a = s'.msg.read a)
    (h : ∀ (L : Len) (m : List Byte), s.mlen = .written L → m.length = L.toNat → SameOutcome f (k m) (k' m)) :
    SameOutcome f (withMessage s k) (withMessage s' k') := by
  unfold withMessage inRange
  rw [← hlen, outOfRange_congr hmax]
  refine sameOutcome_operand fun L hL => ?_
  have hL : s.mlen = .written L := Slot.get?_eq_some.mp hL
  split
  · exact rfl
  · have hread : s.msg.readBytes 0 L.toNat = s'.msg.readBytes 0 L.toNat :=
      Memory.readBytes_congr fun i hi => by simpa using hmsg L hL i hi
    rw [← hread]
    exact sameOutcome_operand fun m hm => h L m hL (Memory.length_of_readBytes hm)

theorem readLanes_congr {n : Nat} (h : ∀ k : Fin 4, ∀ a < n, (s.msg4[k]).read a = (s'.msg4[k]).read a) :
    readLanes s n = readLanes s' n := by
  have hlane (k : Fin 4) : (s.msg4[k]).readBytes 0 n = (s'.msg4[k]).readBytes 0 n :=
    Memory.readBytes_congr fun i hi => by simpa using h k i hi
  refine Option.ext fun m => ?_
  simp only [readLanes_eq_some, hlane]

theorem laneLength_eq_first {L : Vector Len 4} (h : L[0] = L[1] ∧ L[1] = L[2] ∧ L[2] = L[3]) (k : Fin 4) :
    L[k] = L[0] := by
  obtain ⟨h01, h12, h23⟩ := h
  fin_cases k <;> simp [h01, h12, h23]

theorem sameOutcome_withLanes {k k' : Vector (List Byte) 4 → Result} (hmax : s.msgMax = s'.msgMax)
    (hlens : s.ml4 = s'.ml4)
    (hmsg : ∀ (k : Fin 4) (L : Len), s.ml4[k] = .written L → ∀ a < L.toNat, (s.msg4[k]).read a = (s'.msg4[k]).read a)
    (h : ∀ m, SameOutcome f (k m) (k' m)) : SameOutcome f (withLanes s k) (withLanes s' k') := by
  unfold withLanes
  rw [← hlens, outOfRange_congr hmax]
  refine sameOutcome_operand fun L hL => ?_
  split
  · exact rfl
  · split
    · exact rfl
    · next heq =>
      have hlanes : readLanes s L[0].toNat = readLanes s' L[0].toNat :=
        readLanes_congr fun k a ha => by
          refine hmsg k L[0] ?_ a ha
          rw [← laneLength_eq_first (not_not.mp heq) k]
          exact readAll_eq_some.mp hL k k.isLt
      rw [← hlanes]
      exact sameOutcome_operand fun m _ => h m

theorem sameOutcome_cryptCommand (d : Bool) (hin : s.blkIn = s'.blkIn) (hrk : s.rk = s'.rk) :
    SameOutcome (fun t => t.blkOut) (cryptCommand d s) (cryptCommand d s') := by
  unfold cryptCommand
  rw [← hin, ← hrk]
  exact sameOutcome_operand fun _ _ => sameOutcome_operand fun _ _ => by simp [SameOutcome]

end SameOutcome

/-- Settles O31: each way of taking an operand answers alike on states that agree there, and what is then written is a
function of the values taken. -/
theorem resultsDependOnlyOnOperands : Obligations.ResultsDependOnlyOnOperands := by
  intro s s' hmax
  refine ⟨fun hsw => ?_, fun hkey => ?_, fun hin hrk => ?_, ?_, fun hv hhb => ?_, fun hv => ?_, fun hlen hmsg => ?_,
    fun hlens hmsg => ?_⟩
  · simp only [exec, execSubw, ← hsw]
    exact sameOutcome_operand fun _ _ => rfl
  · simp only [exec, execKexp, ← hkey]
    exact sameOutcome_operand fun _ _ => by simp [SameOutcome]
  · exact ⟨sameOutcome_cryptCommand false hin hrk, sameOutcome_cryptCommand true hin hrk⟩
  · simp [exec, execHinit, SameOutcome]
  · simp only [exec, execHblk, ← hv, ← hhb]
    exact sameOutcome_operand fun _ _ => sameOutcome_operand fun _ _ => by simp [SameOutcome]
  · simp only [exec, execHdig, ← hv]
    exact sameOutcome_operand fun _ _ => by simp [SameOutcome]
  · refine ⟨?_, ?_, fun L a hL ha => ?_⟩
    · exact sameOutcome_withMessage hmax hlen hmsg fun _ _ _ _ => by simp [SameOutcome]
    · exact sameOutcome_withMessage hmax hlen hmsg fun _ _ _ _ => rfl
    · refine sameOutcome_withMessage hmax hlen hmsg fun L' m hL' hm => ?_
      have hin : a < (pad m).length := by
        rw [hL] at hL'; cases hL'
        rwa [pad_length, hm]
      simp [SameOutcome, Memory.read_writeBytes, hin]
  · exact sameOutcome_withLanes hmax hlens hmsg fun _ => by simp [SameOutcome]

/-! ### Decoding a command's code -/

theorem unitField_append_fnField (c : Byte) : unitField c ++ fnField c = c := by
  unfold unitField fnField
  rw [BitVec.extractLsb'_append_extractLsb'_eq_extractLsb' (by decide)]
  simp

/-- In unit 1 the three fields of R72 give `fn` back. -/
theorem fnField_of_decodeCipher {fn : BitVec 4} {i : Instr} (h : decodeCipher fn = .ok i) :
    unitOf i = 1 ∧ fn = fnOf i := by
  unfold decodeCipher at h
  split at h
  · next hfn => cases h; exact ⟨rfl, hfn⟩
  · split at h
    · next h3 =>
      split at h <;> next h0 => cases h; revert fn; decide
    · cases h

theorem fnField_of_decodeHash {fn : BitVec 4} {i : Instr} (h : decodeHash fn = .ok i) :
    unitOf i = 2 ∧ fn = fnOf i := by
  unfold decodeHash at h
  split_ifs at h with h0 h1 h2 h3 h4 <;> cases h <;> exact ⟨rfl, ‹_›⟩

/-- The fields of a word that decodes are those of its command (30_encoding.md R71, R73). -/
theorem fields_of_decode {c : Byte} {i : Instr} (h : decode c = .ok i) : unitField c = unitOf i ∧ fnField c = fnOf i := by
  have hsingle {j : Instr} {fn : BitVec 4} (h : decodeSingle j fn = .ok i) : i = j ∧ fn = 0 := by
    unfold decodeSingle at h
    split at h
    · next h0 => cases h; exact ⟨rfl, h0⟩
    · cases h
  unfold decode at h
  split_ifs at h with h0 h1 h2 h3
  · obtain ⟨rfl, hf⟩ := hsingle h; exact ⟨h0, hf⟩
  · obtain ⟨hu, hf⟩ := fnField_of_decodeCipher h; exact ⟨h1.trans hu.symm, hf⟩
  · obtain ⟨hu, hf⟩ := fnField_of_decodeHash h; exact ⟨h2.trans hu.symm, hf⟩
  · obtain ⟨rfl, hf⟩ := hsingle h; exact ⟨h3, hf⟩

/-- Only a command's own code decodes to it. -/
theorem eq_encode_of_decode {c : Byte} {i : Instr} (h : decode c = .ok i) : c = encode i := by
  obtain ⟨hu, hf⟩ := fields_of_decode h
  rw [encode, ← hu, ← hf, unitField_append_fnField]

/-! ### Who writes the operands (10_state.md R28 to R34) -/

/-- A stored byte changes the operand that holds it and no other. -/
theorem setByte_changes (s : State) (e : ByteElem) (b : Byte) :
    ((s.setByte e b).key ≠ s.key → ∃ i, e = .key i) ∧ ((s.setByte e b).blkIn ≠ s.blkIn → ∃ i, e = .blkIn i) ∧
    ((s.setByte e b).hb ≠ s.hb → ∃ i, e = .hb i) ∧ ((s.setByte e b).msg ≠ s.msg → ∃ o, e = .buf .msg o) ∧
    ((s.setByte e b).msg4 ≠ s.msg4 → ∃ k o, e = .buf (.msg4 k) o) := by
  cases e with
  | buf S a => cases S <;> simp [State.setByte, State.setBuffer]
  | _ => simp [State.setByte]

/-- A stored word changes the operand that holds it and no other. -/
theorem setWord_changes (s : State) (e : WordElem) (w : Word) :
    ((s.setWord e w).swIn ≠ s.swIn → e = .swIn) ∧ ((s.setWord e w).rk ≠ s.rk → ∃ i, e = .rk i) ∧
    ((s.setWord e w).v ≠ s.v → ∃ i, e = .v i) := by
  cases e <;> simp [State.setWord]

/-- A stored length changes the operand that holds it and no other. -/
theorem setLen_changes (s : State) (e : LenElem) (l : Len) :
    ((s.setLen e l).mlen ≠ s.mlen → e = .mlen) ∧ ((s.setLen e l).ml4 ≠ s.ml4 → ∃ k, e = .ml4 k) := by
  cases e <;> simp [State.setLen]

/-- No command writes an operand the host provides; KEXP alone writes RK, HINIT and HBLK alone write V. -/
theorem exec_operand_frame {i : Instr} {s t : State} (h : exec i s = .next t) :
    (t.key = s.key ∧ t.blkIn = s.blkIn ∧ t.hb = s.hb ∧ t.swIn = s.swIn ∧ t.mlen = s.mlen ∧ t.ml4 = s.ml4 ∧
      t.msg = s.msg ∧ t.msg4 = s.msg4) ∧
    (t.rk ≠ s.rk → i = .kexp) ∧ (t.v ≠ s.v → i = .hinit ∨ i = .hblk) := by
  cases exec_writesColumn h with
  | v hi x => simp [hi]
  | _ => simp

/-- Settles O32: by what a host action but RESET can do, one command or one element stored. -/
theorem operandsChangeOnlyByTheirWriters : Obligations.OperandsChangeOnlyByTheirWriters := by
  intro s t a rest hs h ha
  rw [step_of_script hs] at h
  rcases perform_next h ha with ⟨r, rs, n, rfl⟩ | ⟨c, i, rfl, hc, he⟩ | ⟨e, b, r, rs, n, hst, rfl⟩ | ⟨e, w, rfl, rfl⟩ |
    ⟨e, l, rfl, rfl⟩
  · simp [State.withBookkeeping]
  · obtain ⟨⟨hkey, hblk, hhb, hsw, hml, hml4, hmsg, hmsg4⟩, hrk, hv⟩ := exec_operand_frame he
    refine ⟨(absurd hkey ·), (absurd hblk ·), (absurd hhb ·), (absurd hsw ·), (absurd hml ·), (absurd hml4 ·),
      (absurd hmsg ·), (absurd hmsg4 ·), fun hne => .inl ?_, fun hne => ?_⟩
    · rw [eq_encode_of_decode hc, hrk hne]; rfl
    · rcases hv hne with rfl | rfl
      · exact .inl (by rw [eq_encode_of_decode hc]; rfl)
      · exact .inr (.inl (by rw [eq_encode_of_decode hc]; rfl))
  · obtain ⟨hkey, hblk, hhb, hmsg, hmsg4⟩ := setByte_changes (State.withBookkeeping { s with script := rest } r rs n) e b
    refine ⟨fun hne => let ⟨i, hi⟩ := hkey hne; ⟨i, hi ▸ hst⟩, fun hne => let ⟨i, hi⟩ := hblk hne; ⟨i, hi ▸ hst⟩,
      fun hne => let ⟨i, hi⟩ := hhb hne; ⟨i, hi ▸ hst⟩, ?_, ?_, ?_,
      fun hne => let ⟨o, ho⟩ := hmsg hne; ⟨o, ho ▸ hst⟩,
      fun hne => let ⟨k, o, ho⟩ := hmsg4 hne; ⟨k, o, ho ▸ hst⟩, ?_, ?_⟩
    all_goals simp [State.withBookkeeping]
  · obtain ⟨hsw, hrk, hv⟩ := setWord_changes { s with script := rest } e w
    refine ⟨?_, ?_, ?_, fun hne => ⟨w, by rw [hsw hne]⟩, ?_, ?_, ?_, ?_,
      fun hne => .inr ((hrk hne).imp fun _ he => ⟨w, by rw [he]⟩),
      fun hne => .inr (.inr ((hv hne).imp fun _ he => ⟨w, by rw [he]⟩))⟩
    all_goals simp
  · obtain ⟨hml, hml4⟩ := setLen_changes { s with script := rest } e l
    refine ⟨?_, ?_, ?_, ?_, fun hne => ⟨l, by rw [hml hne]⟩, fun hne => (hml4 hne).imp fun _ he => ⟨l, by rw [he]⟩,
      ?_, ?_, ?_, ?_⟩
    all_goals simp

/-! ### Host reads (10_state.md R40, 20_memory.md R55) -/

theorem ifByteExists_of_exists {s : State} {e : ByteElem} (h : ByteExists s e) (k : Result) : ifByteExists s e k = k := by
  cases e with
  | buf S a => exact if_pos (h S a rfl)
  | _ => rfl

/-- What a host read of an element that holds `x` leaves: nothing the host can read differs, and the place in the free
values advances when `x` is unwritten. -/
theorem deliver_useFree_effect {α : Type} (s : State) (rest : List HostAction) (x : Slot α) (v : HostValue) {t : State}
    (ht : t = (State.useFree { s with script := rest } x).deliver v) :
    t.script = rest ∧ t.reads = v :: s.reads ∧ SameElements s t (fun _ => False) ∧
      (∀ b, x = .written b → t.freeIndex = s.freeIndex) ∧ (x = .unwritten → t.freeIndex = s.freeIndex + 1) := by
  subst ht
  refine ⟨by simp, by simp, ?_, ?_, ?_⟩
  · rw [State.deliver_useFree_eq]
    exact ⟨fun _ _ => rfl, fun _ _ => rfl, fun _ _ => rfl, rfl, rfl⟩
  · rintro b rfl; rfl
  · rintro rfl; rfl

/-- Settles O40: a read delivers one value and touches the place in the free values, nothing else. -/
theorem hostReadsChangeNoState : Obligations.HostReadsChangeNoState := by
  intro s rest
  refine ⟨fun e hs hex => ?_, fun e hs => ?_, fun e hs => ?_⟩
  · obtain ⟨hscript, hreads, hsame, hw, hu⟩ := deliver_useFree_effect s rest (s.byteAt e) (.byte (s.hostByte e)) rfl
    refine ⟨_, s.hostByte e, ?_, hscript, hreads, hsame, fun b hb => ⟨by rw [State.hostByte, hb]; rfl, hw b hb⟩,
      fun hb => ⟨by rw [State.hostByte, hb]; rfl, hu hb⟩⟩
    rw [step_of_script hs]
    exact ifByteExists_of_exists (s := { s with script := rest }) hex _
  · obtain ⟨hscript, hreads, hsame, hw, hu⟩ := deliver_useFree_effect s rest (s.wordAt e) (.word (s.hostWord e)) rfl
    exact ⟨_, s.hostWord e, step_of_script hs, hscript, hreads, hsame,
      fun b hb => ⟨by rw [State.hostWord, hb]; rfl, hw b hb⟩, fun hb => ⟨by rw [State.hostWord, hb]; rfl, hu hb⟩⟩
  · obtain ⟨hscript, hreads, hsame, hw, hu⟩ := deliver_useFree_effect s rest (s.lenAt e) (.len (s.hostLen e)) rfl
    exact ⟨_, s.hostLen e, step_of_script hs, hscript, hreads, hsame,
      fun b hb => ⟨by rw [State.hostLen, hb]; rfl, hw b hb⟩, fun hb => ⟨by rw [State.hostLen, hb]; rfl, hu hb⟩⟩

/-! ### Running a command -/

theorem issue_of_decode {c : Byte} {i : Instr} (h : decode c = .ok i) (s : State) : issue c s = exec i s := by
  unfold issue; rw [h]

theorem step_of_cmd {s : State} {c : Byte} {rest : List HostAction} {i : Instr} (hs : s.script = .cmd c :: rest)
    (hc : decode c = .ok i) :
    step s = absorbRefusal { s with script := rest } (exec i { s with script := rest }) := by
  rw [step_of_script hs, perform, issue_of_decode hc]

theorem decode_of_decodeTableWord {n w : Nat} {i : Instr} (h : decodeTableWord n w = some i) :
    decode (BitVec.ofNat 8 w) = .ok i := by
  cases hd : decode (BitVec.ofNat 8 w) with
  | ok j =>
    simp only [decodeTableWord, decodeBytes, hd, Option.some.injEq] at h
    rw [h]
  | error e => simp [decodeTableWord, decodeBytes, hd] at h

/-- Settles O5: the head of the script is the command, and `withFetchWord` puts it there. -/
theorem stepRunsTheDecodedCommand : Obligations.StepRunsTheDecodedCommand := by
  refine ⟨fun s c rest i hs hc => ?_, fun s w i hw => ?_⟩
  · rw [step_of_cmd hs hc]
    cases exec i { s with script := rest } <;> rfl
  · have hc := decode_of_decodeTableWord hw
    have hs : (s.withFetchWord 8 w).script = .cmd (BitVec.ofNat 8 w) :: s.script := rfl
    have hrest : { s.withFetchWord 8 w with script := s.script } = s := rfl
    rw [step_of_cmd hs hc, hrest]
    cases exec i s <;> rfl

/-! ### RESET (10_state.md R41, 70_reset_and_hazards.md R191) -/

theorem resetWith_buffer (m : Fin (2 ^ 61)) (S : Space) : (State.resetWith m).buffer S = [] := by
  cases S <;> simp [State.buffer, State.resetWith]

theorem resetWith_isWritten (m : Fin (2 ^ 61)) (e : Elem) : (State.resetWith m).isWritten e = false := by
  cases e with
  | byte e =>
    cases e with
    | buf S a => simp [State.byteAt, resetWith_buffer, Memory.read]
    | _ => simp [State.byteAt, State.resetWith]
  | word e => cases e <;> simp [State.wordAt, State.resetWith]
  | len e => cases e <;> simp [State.lenAt, State.resetWith]

theorem readAll_replicate_unwritten {w n : Nat} (hn : 0 < n) :
    readAll (Vector.replicate n (.unwritten : Slot (BitVec w))) = none :=
  readAll_eq_none.mpr ⟨0, hn, by simp⟩

/-- Settles O37: every element is unwritten, and the first operand of each of the four commands is one of them. -/
theorem resetLeavesEverythingUnwritten : Obligations.ResetLeavesEverythingUnwritten := by
  refine ⟨fun m e => ⟨resetWith_isWritten m e, rfl, rfl⟩, fun m i hi => ?_, Config.defaultMsgMax, rfl⟩
  have hblk : readAll (State.resetWith m).blkIn = none := readAll_replicate_unwritten (by decide)
  have hv : readAll (State.resetWith m).v = none := readAll_replicate_unwritten (by decide)
  simp only [List.mem_cons, List.not_mem_nil, or_false] at hi
  rcases hi with rfl | rfl | rfl | rfl
  · simp only [exec, execEnc, cryptCommand, hblk, operand]
  · simp only [exec, execDec, cryptCommand, hblk, operand]
  · simp only [exec, execHblk, hv, operand]
  · simp only [exec, execHdig, hv, operand]

theorem inv_resetWith (m : Fin (2 ^ 61)) : (State.resetWith m).inv := by
  intro S
  rw [State.bufferOk, resetWith_buffer]; rfl

/-- Settles O44: every buffer is empty after RESET. -/
theorem buffersAreCanonicalAfterReset : Obligations.BuffersAreCanonicalAfterReset :=
  fun m => ⟨inv_resetWith m, inv_resetWith _⟩

end Sys2Proof.Machine
end

section
/-! SUPPORT. The family of 20_memory.md: a byte access answers by whether the byte exists, the invariant depends on the
buffers and MSG_MAX alone, then the statements about the canonical form, host writes and faults. -/

namespace Sys2Proof.Machine

open Sys2Proof.Claims

/-! ### Accesses inside and outside a buffer (20_memory.md R50) -/

theorem ifByteExists_of_beyond {s : State} {S : Space} {a : Nat} (h : s.bufferSize S ≤ a) (k : Result) :
    ifByteExists s (.buf S a) k = .fault (.noSuchByte S a) :=
  if_neg h.not_gt

/-- Everything `ifByteExists` can answer. -/
theorem ifByteExists_cases (s : State) (e : ByteElem) (k : Result) :
    (ByteExists s e ∧ ifByteExists s e k = k) ∨
    ∃ S a, e = .buf S a ∧ s.bufferSize S ≤ a ∧ ifByteExists s e k = .fault (.noSuchByte S a) := by
  by_cases he : ByteExists s e
  · exact .inl ⟨he, ifByteExists_of_exists he k⟩
  · simp only [ByteExists, not_forall, not_lt] at he
    obtain ⟨S, a, rfl, ha⟩ := he
    exact .inr ⟨S, a, rfl, ha, ifByteExists_of_beyond ha k⟩

theorem byteExists_of_ifByteExists_next {s t : State} {e : ByteElem} {k : Result}
    (h : ifByteExists s e k = .next t) : ByteExists s e := by
  rcases ifByteExists_cases s e k with ⟨he, -⟩ | ⟨S, a, -, -, hf⟩
  · exact he
  · rw [hf] at h; cases h

/-- A host action that stored a byte found that the byte exists. -/
theorem byteExists_of_storesByte {a : HostAction} {s t : State} {e : ByteElem} (h : perform a s = .next t)
    (ha : a.storesByte e) : ByteExists s e := by
  obtain ⟨b, rfl⟩ | ⟨src, rfl⟩ := ha
  · exact byteExists_of_ifByteExists_next h
  · exact byteExists_of_ifByteExists_next (ifByteExists_next h)

/-! ### The buffers stay canonical and within their sizes (20_memory.md R50, R63) -/

theorem padlen_mono {L M : Nat} (h : L ≤ M) : padlen L ≤ padlen M := by
  unfold padlen padzeros; omega

theorem State.bufferSize_congr {s t : State} (h : t.msgMax = s.msgMax) (S : Space) :
    t.bufferSize S = s.bufferSize S := by
  cases S <;> simp only [State.bufferSize, h]

/-- The invariant depends on the six buffers and MSG_MAX alone. -/
theorem State.inv_congr {s t : State} (h : s.inv) (hmsg : t.msg = s.msg) (hpmsg : t.pmsg = s.pmsg)
    (hmsg4 : t.msg4 = s.msg4) (hmax : t.msgMax = s.msgMax) : t.inv := by
  intro S
  have hbuf : t.buffer S = s.buffer S := by cases S <;> simp only [State.buffer, hmsg, hpmsg, hmsg4]
  rw [State.bufferOk, hbuf, State.bufferSize_congr hmax]
  exact h S

/-- Replacing one buffer by a canonical one within its size keeps the invariant. -/
theorem State.inv_setBuffer {s : State} {S : Space} {m : Memory} (h : s.inv) (hwf : m.wf = true)
    (hfits : m.fits (s.bufferSize S) = true) : (s.setBuffer S m).inv := by
  intro S'
  rw [State.bufferOk, State.bufferSize_congr (State.setBuffer_msgMax s S m)]
  by_cases hS : S = S'
  · subst hS
    rw [State.buffer_setBuffer_same, hwf, hfits]; rfl
  · rw [State.buffer_setBuffer_other s m hS]
    exact h S'

theorem State.inv_buffer {s : State} (h : s.inv) (S : Space) :
    (s.buffer S).wf = true ∧ (s.buffer S).fits (s.bufferSize S) = true :=
  Bool.and_eq_true_iff.mp (h S)

theorem State.inv_setByte {s : State} {e : ByteElem} (h : s.inv) (he : ByteExists s e) (b : Byte) :
    (s.setByte e b).inv := by
  cases e with
  | buf S a =>
    obtain ⟨hwf, hfits⟩ := State.inv_buffer h S
    exact State.inv_setBuffer h (Memory.wf_write hwf a b) (Memory.fits_write hfits (he S a rfl) b)
  | _ => exact State.inv_congr h rfl rfl rfl rfl

/-- PAD's result keeps the invariant as long as it fits in PMSG. -/
theorem State.inv_putPadded {s : State} {p : List Byte} (h : s.inv) (hp : p.length ≤ s.bufferSize .pmsg) :
    (s.putPadded p).inv := by
  obtain ⟨hwf, hfits⟩ := State.inv_buffer h .pmsg
  have hset : (s.setBuffer .pmsg (s.pmsg.writeBytes 0 p)).inv :=
    State.inv_setBuffer h (Memory.wf_writeBytes p 0 hwf) (Memory.fits_writeBytes p 0 hfits (by omega))
  exact State.inv_congr hset rfl rfl rfl rfl

/-- PAD is the only command that stores to a buffer, and `padlen L ≤ padlen MSG_MAX` bounds what it stores. -/
theorem exec_inv {i : Instr} {s t : State} (h : exec i s = .next t) (hinv : s.inv) : t.inv := by
  cases exec_writesColumn h with
  | padded p =>
    obtain ⟨L, m, -, hle, hm, ht⟩ := execPad_next h
    have hlen : (pad m).length ≤ s.bufferSize .pmsg := by
      rw [pad_length, Memory.length_of_readBytes hm]
      exact padlen_mono hle
    rw [ht]
    exact State.inv_putPadded hinv hlen
  | _ => exact State.inv_congr hinv (by simp) (by simp) (by simp) (by simp)

theorem perform_inv {a : HostAction} {s t : State} (h : perform a s = .next t) (hinv : s.inv) : t.inv := by
  by_cases ha : a = .reset
  · subst ha; cases h
    exact State.inv_congr (inv_resetWith s.msgMax) rfl rfl rfl rfl
  rcases perform_next h ha with ⟨r, rs, n, rfl⟩ | ⟨c, i, -, -, he⟩ | ⟨e, b, r, rs, n, hst, rfl⟩ | ⟨e, w, -, rfl⟩ |
    ⟨e, l, -, rfl⟩
  · exact State.inv_congr hinv rfl rfl rfl rfl
  · exact exec_inv he hinv
  · have hexists : ByteExists s e := byteExists_of_storesByte h hst
    have hkeep : (s.withBookkeeping r rs n).inv := State.inv_congr hinv rfl rfl rfl rfl
    exact State.inv_setByte hkeep hexists b
  · exact State.inv_congr hinv (by simp) (by simp) (by simp) (by simp)
  · exact State.inv_congr hinv (by simp) (by simp) (by simp) (by simp)

/-- Settles O43: an idle step changes nothing, and every host action keeps the invariant. -/
theorem everyStepKeepsBuffersCanonical : Obligations.EveryStepKeepsBuffersCanonical := by
  intro s t hinv h
  rcases step_cases s with ⟨-, hidle⟩ | ⟨a, rest, -, hstep⟩
  · rw [hidle] at h; cases h; exact hinv
  · have hrest : ({ s with script := rest } : State).inv := State.inv_congr hinv rfl rfl rfl rfl
    exact perform_inv (hstep.symm.trans h) hrest

/-! ### Host writes (20_memory.md R54, R55) -/

/-- Settles O39: each store operation puts the value in one element and leaves every other as it was. -/
theorem hostWritesStoreOneElement : Obligations.HostWritesStoreOneElement := by
  intro s rest
  refine ⟨fun e b hs hex => ?_, fun e w hs => ?_, fun e l hs => ?_⟩
  · have hstep := (step_of_script hs).trans (ifByteExists_of_exists (s := { s with script := rest }) hex _)
    exact ⟨_, hstep, by simp, by simp, sameElements_setByte _ e b, by simp, by simp⟩
  · exact ⟨_, step_of_script hs, by simp, by simp, sameElements_setWord _ e w, by simp, by simp⟩
  · exact ⟨_, step_of_script hs, by simp, by simp, sameElements_setLen _ e l, by simp, by simp⟩

/-! ### Faults (20_memory.md R50, 10_state.md R38, 60_exceptions.md R170) -/

section NoFault

variable {f : Fault}

theorem operand_ne_fault {α : Type} {o : Option α} {k : α → Result} (h : ∀ x, k x ≠ .fault f) :
    operand o k ≠ .fault f := by
  rcases operand_cases o k with ⟨-, hr⟩ | ⟨x, -, hr⟩ <;> rw [hr]
  · nofun
  · exact h x

theorem withMessage_ne_fault {s : State} {k : List Byte → Result} (h : ∀ m, k m ≠ .fault f) :
    withMessage s k ≠ .fault f := by
  rcases withMessage_cases s k with ⟨-, hr⟩ | ⟨L, -, ⟨-, hr⟩ | ⟨-, ⟨-, hr⟩ | ⟨m, -, hr⟩⟩⟩ <;> rw [hr]
  case inr.inr.inr => exact h m
  all_goals nofun

theorem withLanes_ne_fault {s : State} {k : Vector (List Byte) 4 → Result} (h : ∀ m, k m ≠ .fault f) :
    withLanes s k ≠ .fault f := by
  rcases withLanes_cases s k with ⟨-, hr⟩ | ⟨L, -, ⟨-, hr⟩ | ⟨-, ⟨-, hr⟩ | ⟨-, ⟨-, hr⟩ | ⟨m, -, hr⟩⟩⟩⟩ <;> rw [hr]
  case inr.inr.inr.inr => exact h m
  all_goals nofun

theorem cryptCommand_ne_fault (d : Bool) (s : State) : cryptCommand d s ≠ .fault f :=
  operand_ne_fault fun _ => operand_ne_fault fun _ => nofun

/-- No command raises a fault (60_exceptions.md R170). -/
theorem exec_ne_fault (i : Instr) (s : State) : exec i s ≠ .fault f := by
  cases i with
  | subw => exact operand_ne_fault fun _ => nofun
  | kexp => exact operand_ne_fault fun _ => nofun
  | enc => exact cryptCommand_ne_fault false s
  | dec => exact cryptCommand_ne_fault true s
  | pad => exact withMessage_ne_fault fun _ => nofun
  | hinit => nofun
  | hblk => exact operand_ne_fault fun _ => operand_ne_fault fun _ => nofun
  | hdig => exact operand_ne_fault fun _ => nofun
  | hash => exact withMessage_ne_fault fun _ => nofun
  | hash4 => exact withLanes_ne_fault fun _ => nofun

theorem issue_ne_fault (c : Byte) (s : State) : issue c s ≠ .fault f := by
  unfold issue
  split
  · exact exec_ne_fault _ s
  · nofun

end NoFault

theorem absorbRefusal_fault {s : State} {o : Result} {f : Fault} (h : absorbRefusal s o = .fault f) :
    o = .fault f := by
  cases o with
  | fault g => exact h
  | _ => cases h

theorem absorbRefusal_ne_refused (s : State) (o : Result) (r : Refusal) : absorbRefusal s o ≠ .refused r := by
  cases o <;> nofun

/-- The action looks for the byte at offset `a` of the space `S`: a write of it, a read of it, a copy from it, or a copy to
it whose source exists, since a copy looks at its source first (log 11). -/
def HostAction.looksFor (x : HostAction) (s : State) (S : Space) (a : Nat) : Prop :=
  (∃ b, x = .writeByte (.buf S a) b) ∨ x = .read (.byte (.buf S a)) ∨ (∃ dst, x = .copyByte dst (.buf S a)) ∨
    ∃ src, x = .copyByte (.buf S a) src ∧ ByteExists s src

/-- A byte access faults where the byte does not exist, or as what follows it does. -/
theorem ifByteExists_fault {s : State} {e : ByteElem} {k : Result} {f : Fault} (h : ifByteExists s e k = .fault f) :
    (∃ S a, f = .noSuchByte S a ∧ s.bufferSize S ≤ a ∧ e = .buf S a) ∨ (ByteExists s e ∧ k = .fault f) := by
  rcases ifByteExists_cases s e k with ⟨he, hk⟩ | ⟨S, a, he, ha, hf⟩
  · exact .inr ⟨he, hk ▸ h⟩
  · rw [hf] at h; cases h
    exact .inl ⟨S, a, rfl, ha, he⟩

/-- Everything a host action that faults can be. -/
theorem perform_fault {x : HostAction} {s : State} {f : Fault} (h : perform x s = .fault f) :
    (∃ S a, f = .noSuchByte S a ∧ s.bufferSize S ≤ a ∧ x.looksFor s S a) ∨
    (f = .commandRegisterRead ∧ x = .readCmd) := by
  cases x with
  | reset => cases h
  | cmd c => exact absurd (absorbRefusal_fault h) (issue_ne_fault c s)
  | writeByte e b =>
    rcases ifByteExists_fault h with ⟨S, a, hf, ha, rfl⟩ | ⟨-, h⟩
    · exact .inl ⟨S, a, hf, ha, .inl ⟨b, rfl⟩⟩
    · cases h
  | writeWord e w => cases h
  | writeLen e l => cases h
  | read e =>
    cases e with
    | byte e =>
      rcases ifByteExists_fault h with ⟨S, a, hf, ha, rfl⟩ | ⟨-, h⟩
      · exact .inl ⟨S, a, hf, ha, .inr (.inl rfl)⟩
      · cases h
    | word e => cases h
    | len e => cases h
  | copyByte dst src =>
    rcases ifByteExists_fault h with ⟨S, a, hf, ha, rfl⟩ | ⟨hsrc, h⟩
    · exact .inl ⟨S, a, hf, ha, .inr (.inr (.inl ⟨dst, rfl⟩))⟩
    · rcases ifByteExists_fault h with ⟨S, a, hf, ha, rfl⟩ | ⟨-, h⟩
      · exact .inl ⟨S, a, hf, ha, .inr (.inr (.inr ⟨src, rfl, hsrc⟩))⟩
      · cases h
  | readCmd => cases h; exact .inr ⟨rfl, rfl⟩

theorem ifByteExists_ne_refused {s : State} {e : ByteElem} {k : Result} {r : Refusal} (h : k ≠ .refused r) :
    ifByteExists s e k ≠ .refused r := by
  rcases ifByteExists_cases s e k with ⟨-, hk⟩ | ⟨S, a, -, -, hf⟩
  · rwa [hk]
  · rw [hf]; nofun

theorem perform_ne_refused (x : HostAction) (s : State) (r : Refusal) : perform x s ≠ .refused r := by
  cases x with
  | cmd c => exact absorbRefusal_ne_refused s _ r
  | writeByte e b => exact ifByteExists_ne_refused nofun
  | read e =>
    cases e with
    | byte e => exact ifByteExists_ne_refused nofun
    | word e => nofun
    | len e => nofun
  | copyByte dst src => exact ifByteExists_ne_refused (ifByteExists_ne_refused nofun)
  | _ => nofun

/-- Settles O42: an access looks for its bytes in order and stops at the first that does not exist; commands raise no fault
and their refusals are absorbed. -/
theorem onlyImpossibleHostAccessesFault : Obligations.OnlyImpossibleHostAccessesFault := by
  refine ⟨fun s rest S a ha hs => ?_, fun s rest dst src hs => ⟨?_, ?_⟩, fun s rest hs => step_of_script hs,
    fun s f h => ?_, fun s r h => ?_⟩
  · rcases hs with ⟨b, hs⟩ | hs <;> rw [step_of_script hs] <;>
      exact ifByteExists_of_beyond (s := { s with script := rest }) ha _
  · rintro S a rfl ha
    rw [step_of_script hs]
    exact ifByteExists_of_beyond (s := { s with script := rest }) ha _
  · rintro S a rfl ha hsrc
    rw [step_of_script hs]
    exact (ifByteExists_of_exists (s := { s with script := rest }) hsrc _).trans
      (ifByteExists_of_beyond (s := { s with script := rest }) ha _)
  · rcases step_cases s with ⟨-, hidle⟩ | ⟨x, rest, hs, hstep⟩
    · rw [hidle] at h; cases h
    · rw [hstep] at h
      simp only [hs, List.head?_cons, Option.some.injEq]
      exact perform_fault (s := { s with script := rest }) h
  · rcases step_cases s with ⟨-, hidle⟩ | ⟨x, rest, -, hstep⟩
    · rw [hidle] at h; cases h
    · exact perform_ne_refused x _ r (hstep.symm.trans h)

end Sys2Proof.Machine
end

section
/-! SUPPORT. The family of 30_encoding.md: the decoder is the inverse of the encoder on command words, what the word check
accepts, then the statements about words, streams and the host copy. -/

namespace Sys2Proof.Machine

open Sys2Proof.Claims

/-! ### Command words (30_encoding.md R71 to R76) -/

/-- The facts proved of each command alone hold of every command. -/
theorem fields_statement (i : Instr) : Laws.Fields.Statement i := by
  cases i with
  | subw => exact Laws.Fields.subw
  | kexp => exact Laws.Fields.kexp
  | enc => exact Laws.Fields.enc
  | dec => exact Laws.Fields.dec
  | pad => exact Laws.Fields.pad
  | hinit => exact Laws.Fields.hinit
  | hblk => exact Laws.Fields.hblk
  | hdig => exact Laws.Fields.hdig
  | hash => exact Laws.Fields.hash
  | hash4 => exact Laws.Fields.hash4

@[simp] theorem decode_encode (i : Instr) : decode (encode i) = .ok i := by
  cases i <;> rfl

theorem decode_eq_ok_iff {c : Byte} {i : Instr} : decode c = .ok i ↔ c = encode i :=
  ⟨eq_encode_of_decode, fun h => h ▸ decode_encode i⟩

theorem eq_encode_of_fields {c : Byte} {i : Instr} (hu : unitField c = unitOf i) (hf : fnField c = fnOf i) :
    c = encode i := by
  rw [encode, ← hu, ← hf, unitField_append_fnField]

/-- Unit by unit, the values of `fn` the word check accepts are those of the commands of the unit. -/
theorem exists_encode_of_commandWordWellFormed {c : Byte} (h : commandWordWellFormed c = true) : ∃ i, c = encode i := by
  obtain ⟨hunit, hfn⟩ := Bool.and_eq_true_iff.mp h
  have code (i : Instr) (hu : (unitField c).toNat = (unitOf i).toNat) (hf : (fnField c).toNat = (fnOf i).toNat) :
      ∃ i, c = encode i :=
    ⟨i, eq_encode_of_fields (BitVec.eq_of_toNat_eq hu) (BitVec.eq_of_toNat_eq hf)⟩
  unfold functionAssigned at hfn
  split at hfn
  · next hu => exact code .subw hu (eq_of_beq hfn)
  · next hu =>
    simp only [Bool.or_eq_true, beq_iff_eq] at hfn
    rcases hfn with (hf | hf) | hf
    · exact code .kexp hu hf
    · exact code .enc hu hf
    · exact code .dec hu hf
  · next hu =>
    have hle : (fnField c).toNat ≤ 4 := of_decide_eq_true hfn
    interval_cases (fnField c).toNat
    · exact code .pad hu rfl
    · exact code .hinit hu rfl
    · exact code .hblk hu rfl
    · exact code .hdig hu rfl
    · exact code .hash hu rfl
  · next hu => exact code .hash4 hu (eq_of_beq hfn)
  · next h0 h1 h2 h3 =>
    have hle : (unitField c).toNat ≤ 3 := of_decide_eq_true hunit
    interval_cases hu : (unitField c).toNat
    · exact (h0 hu).elim
    · exact (h1 hu).elim
    · exact (h2 hu).elim
    · exact (h3 hu).elim

/-- Settles O1: each command's code evaluates to its row of the map, and only its code decodes to it. -/
theorem commandWordsAreTheTenCodes : Obligations.CommandWordsAreTheTenCodes := by
  intro c i
  rw [decode_eq_ok_iff]
  constructor
  · rintro rfl
    cases i <;> decide
  · rintro (⟨rfl, rfl⟩ | ⟨rfl, rfl⟩ | ⟨rfl, rfl⟩ | ⟨rfl, rfl⟩ | ⟨rfl, rfl⟩ | ⟨rfl, rfl⟩ | ⟨rfl, rfl⟩ | ⟨rfl, rfl⟩ |
      ⟨rfl, rfl⟩ | ⟨rfl, rfl⟩) <;> rfl

/-- Settles O4: both accept the codes of the commands and nothing else. -/
theorem wordCheckAgreesWithDecoder : Obligations.WordCheckAgreesWithDecoder := by
  intro c
  simp only [decode_eq_ok_iff]
  constructor
  · exact exists_encode_of_commandWordWellFormed
  · rintro ⟨i, rfl⟩
    obtain ⟨-, hcheck, -⟩ := fields_statement i
    exact hcheck

/-! ### Streams of command bytes (30_encoding.md R70, R77) -/

theorem decodeStream_cons_eq_ok_iff {c : Byte} {rest : List Byte} {is : List Instr} :
    decodeStream (c :: rest) = .ok is ↔ ∃ i js, decode c = .ok i ∧ decodeStream rest = .ok js ∧ is = i :: js := by
  cases hc : decode c with
  | error e => simp [decodeStream, hc]
  | ok i => cases hrest : decodeStream rest <;> simp [decodeStream, hc, hrest, eq_comm]

/-- The decoder reads a list of commands from its encoding and from nothing else. -/
theorem decodeStream_eq_ok_iff (bs : List Byte) (is : List Instr) :
    decodeStream bs = .ok is ↔ bs = encodeStream is := by
  induction bs generalizing is with
  | nil => cases is <;> simp [decodeStream, encodeStream]
  | cons c rest ih =>
    rw [decodeStream_cons_eq_ok_iff]
    cases is with
    | nil => simp [encodeStream]
    | cons i js => simp [encodeStream, decode_eq_ok_iff, ih]

theorem all_wellFormed (is : List Instr) : is.all Instr.wellFormed = true :=
  List.all_eq_true.mpr fun i _ => (fields_statement i).left

/-- Settles O3: by induction on the stream, one word at a time; every command is well formed. -/
theorem streamDecodesToWhatEncodesIt : Obligations.StreamDecodesToWhatEncodesIt := by
  intro bs is
  rw [decodeStream_eq_ok_iff, and_iff_right (all_wellFormed is)]

/-! ### The host copy (30_encoding.md R77, 20_memory.md R54) -/

/-- An operation that follows one that changes nothing the host can read has the same frame seen from before both. -/
theorem sameElements_trans_of_unchanged {s t u : State} {but : Elem → Prop} (hst : SameElements s t fun _ => False)
    (htu : SameElements t u but) : SameElements s u but := by
  obtain ⟨hbyte, hword, hlen, hmax, hmark⟩ := hst
  obtain ⟨hbyte', hword', hlen', hmax', hmark'⟩ := htu
  exact ⟨fun e he => (hbyte' e he).trans (hbyte e id), fun e he => (hword' e he).trans (hword e id),
    fun e he => (hlen' e he).trans (hlen e id), hmax'.trans hmax, hmark'.trans hmark⟩

/-- Settles O41: the copy is a host read of the source followed by a store of what it returned. -/
theorem hostCopyMovesOneByte : Obligations.HostCopyMovesOneByte := by
  intro s rest dst src hs hdst hsrc
  obtain ⟨hscript, hreads, hsame, -, -⟩ := deliver_useFree_effect s rest (s.byteAt src) (.byte (s.hostByte src)) rfl
  have hstep := (step_of_script hs).trans
    ((ifByteExists_of_exists (s := { s with script := rest }) hsrc _).trans
      (ifByteExists_of_exists (s := { s with script := rest }) hdst _))
  refine ⟨_, s.hostByte src, hstep, ?_, ?_, State.byteAt_setByte_same _ dst _,
    sameElements_trans_of_unchanged hsame (sameElements_setByte _ dst _), fun b hb => by rw [State.hostByte, hb]; rfl⟩
  · exact (State.setByte_script _ dst _).trans hscript
  · exact (State.setByte_reads _ dst _).trans hreads

end Sys2Proof.Machine
end

section
/-! SUPPORT. The family of 40_substitution.md: the four table terms stand in disjoint bytes, so it does not matter what
joins them; SUBW's two answers; the substitution table is a permutation. -/

namespace Sys2Proof.Machine

open Sys2Proof.Claims

/-! ### The byte-position tables (10_state.md R22, 40_substitution.md R92) -/

/-- Table `k` sets bits of byte position `k` only. -/
theorem div_eight_eq_of_getLsbD_T {k i : Nat} {b : Byte} (h : (Config.T k b).getLsbD i = true) : i / 8 = k := by
  rw [Config.T, BitVec.getLsbD_shiftLeft, BitVec.getLsbD_setWidth] at h
  simp only [Bool.and_eq_true, Bool.not_eq_true', decide_eq_true_eq, decide_eq_false_iff_not] at h
  obtain ⟨⟨-, hge⟩, -, hbit⟩ := h
  have hlt : i - 8 * k < 8 := BitVec.lt_of_getLsbD hbit
  omega

/-- Terms of different tables stand in disjoint bytes. -/
theorem T_and_T_eq_zero {j k : Nat} (h : j ≠ k) (b c : Byte) : Config.T j b &&& Config.T k c = 0#32 := by
  refine BitVec.eq_of_getLsbD_eq fun i _ => ?_
  rw [BitVec.getLsbD_and, BitVec.getLsbD_zero, Bool.eq_false_iff]
  intro hbits
  obtain ⟨hj, hk⟩ := Bool.and_eq_true_iff.mp hbits
  exact h ((div_eight_eq_of_getLsbD_T hj).symm.trans (div_eight_eq_of_getLsbD_T hk))

/-- The companion for xor of `BitVec.add_eq_or_of_and_eq_zero`. -/
theorem xor_eq_or_of_and_eq_zero {x y : Word} (h : x &&& y = 0#32) : x ^^^ y = x ||| y := by
  refine BitVec.eq_of_getLsbD_eq fun i _ => ?_
  have hi : (x.getLsbD i && y.getLsbD i) = false := by rw [← BitVec.getLsbD_and, h, BitVec.getLsbD_zero]
  rw [BitVec.getLsbD_xor, BitVec.getLsbD_or]
  cases hx : x.getLsbD i with
  | false => rw [Bool.false_xor, Bool.false_or]
  | true =>
    have hy : y.getLsbD i = false := by rwa [hx, Bool.true_and] at hi
    rw [hy, Bool.xor_false, Bool.or_false]

/-- The four table terms, joined by or, are the substituted bytes written next to one another. -/
theorem T_or_eq_append (b3 b2 b1 b0 : Byte) :
    Config.T 3 b3 ||| Config.T 2 b2 ||| Config.T 1 b1 ||| Config.T 0 b0 =
      (Config.SBOX b3 ++ Config.SBOX b2 ++ Config.SBOX b1 ++ Config.SBOX b0 : BitVec 32) := by
  have h := BitVec.setWidth_append_append_append_eq_shiftLeft_setWidth_or (w'''' := 32)
    (b := Config.SBOX b3) (b' := Config.SBOX b2) (b'' := Config.SBOX b1) (b''' := Config.SBOX b0)
  rw [BitVec.setWidth_eq] at h
  rw [h, Config.T, Config.T, Config.T, Config.T, Nat.mul_zero, BitVec.shiftLeft_zero]

section Joins

variable (b3 b2 b1 b0 : Byte)

theorem T_or_two_and_T_eq_zero : (Config.T 3 b3 ||| Config.T 2 b2) &&& Config.T 1 b1 = 0#32 := by
  rw [BitVec.and_or_distrib_right, T_and_T_eq_zero (by decide), T_and_T_eq_zero (by decide), BitVec.or_self]

theorem T_or_three_and_T_eq_zero :
    (Config.T 3 b3 ||| Config.T 2 b2 ||| Config.T 1 b1) &&& Config.T 0 b0 = 0#32 := by
  rw [BitVec.and_or_distrib_right, BitVec.and_or_distrib_right, T_and_T_eq_zero (by decide),
    T_and_T_eq_zero (by decide), T_and_T_eq_zero (by decide), BitVec.or_self, BitVec.or_self]

theorem T_xor_eq_T_or :
    Config.T 3 b3 ^^^ Config.T 2 b2 ^^^ Config.T 1 b1 ^^^ Config.T 0 b0 =
      Config.T 3 b3 ||| Config.T 2 b2 ||| Config.T 1 b1 ||| Config.T 0 b0 := by
  rw [xor_eq_or_of_and_eq_zero (T_and_T_eq_zero (by decide) b3 b2),
    xor_eq_or_of_and_eq_zero (T_or_two_and_T_eq_zero b3 b2 b1),
    xor_eq_or_of_and_eq_zero (T_or_three_and_T_eq_zero b3 b2 b1 b0)]

theorem T_add_eq_T_or :
    Config.T 3 b3 + Config.T 2 b2 + Config.T 1 b1 + Config.T 0 b0 =
      Config.T 3 b3 ||| Config.T 2 b2 ||| Config.T 1 b1 ||| Config.T 0 b0 := by
  rw [BitVec.add_eq_or_of_and_eq_zero _ _ (T_and_T_eq_zero (by decide) b3 b2),
    BitVec.add_eq_or_of_and_eq_zero _ _ (T_or_two_and_T_eq_zero b3 b2 b1),
    BitVec.add_eq_or_of_and_eq_zero _ _ (T_or_three_and_T_eq_zero b3 b2 b1 b0)]

end Joins

theorem subWordT_eq_substituted (w : Word) : subWordT w = substituted w :=
  T_or_eq_append (byteOf w 0) (byteOf w 1) (byteOf w 2) (byteOf w 3)

/-- The bytewise form writes the shifts of the tables out; table 0 does not shift. -/
theorem subWord_eq_subWordT (w : Word) : subWord w = subWordT w := by
  simp [subWord, subWordT, Config.T]

theorem subWord_eq_substituted (w : Word) : subWord w = substituted w :=
  (subWord_eq_subWordT w).trans (subWordT_eq_substituted w)

/-- Settles O10: the terms have no bit in common, so or, xor and addition join them alike. -/
theorem tablesComputeSubWord : Obligations.TablesComputeSubWord := fun w =>
  ⟨subWordT_eq_substituted w, subWord_eq_substituted w, (T_xor_eq_T_or ..).trans (T_or_eq_append ..),
    (T_add_eq_T_or ..).trans (T_or_eq_append ..)⟩

/-! ### SUBW (40_substitution.md R94) -/

theorem execSubw_of_written {s : State} {w : Word} (h : s.swIn = .written w) :
    execSubw s = .next (s.putSwOut (subWord w)) := by
  rw [execSubw, Slot.get?_eq_some.mpr h, operand]

theorem execSubw_of_unwritten {s : State} (h : s.swIn = .unwritten) : execSubw s = .refused .unwrittenOperand := by
  rw [execSubw, Slot.get?_eq_none.mpr h, operand]

/-- Settles O8: SUBW stores `subWord` of its operand, which substitutes byte by byte, or has no operand to read. -/
theorem subwSubstitutesEachByte : Obligations.SubwSubstitutesEachByte := by
  refine ⟨decode_encode .subw, fun s => ⟨fun w h => ?_, execSubw_of_unwritten⟩⟩
  rw [← subWord_eq_substituted]
  exact execSubw_of_written h

/-! ### The substitution table is a permutation (40_substitution.md R90) -/

/-- The set of the bytes listed, as a number: bit `c` is set when `c` is in the list. -/
def byteMask : List Byte → Nat
  | [] => 0
  | b :: bs => 2 ^ b.toNat ||| byteMask bs

theorem testBit_byteMask (bs : List Byte) (c : Byte) : (byteMask bs).testBit c.toNat = true ↔ c ∈ bs := by
  induction bs with
  | nil => simp [byteMask]
  | cons b bs ih =>
    rw [byteMask, Nat.testBit_or, Nat.testBit_two_pow, Bool.or_eq_true, ih, decide_eq_true_eq, BitVec.toNat_inj,
      List.mem_cons, eq_comm]

/-- The table's 256 entries, in order. -/
def sboxEntries : List Byte := (List.range 256).map fun i => Config.SBOX (BitVec.ofNat 8 i)

theorem byteMask_sboxEntries : byteMask sboxEntries = 2 ^ 256 - 1 := by decide +kernel

theorem mem_sboxEntries (c : Byte) : c ∈ sboxEntries := by
  rw [← testBit_byteMask, byteMask_sboxEntries, Nat.testBit_two_pow_sub_one, decide_eq_true_eq]
  exact c.isLt

theorem SBOX_surjective : Function.Surjective Config.SBOX := fun c =>
  let ⟨i, _, hi⟩ := List.mem_map.mp (mem_sboxEntries c)
  ⟨BitVec.ofNat 8 i, hi⟩

/-- The 256 entries have no room for a byte twice. -/
theorem SBOX_injective : Function.Injective Config.SBOX :=
  have : Finite Byte := Finite.of_equiv _ (BitVec.equivFin (m := 8)).toEquiv.symm
  Finite.injective_iff_surjective.mpr SBOX_surjective

/-- Settles O9: every byte is among the 256 entries, so each stands at one place only. -/
theorem substitutionTableIsABijection : Obligations.SubstitutionTableIsABijection :=
  ⟨fun _ _ h => SBOX_injective h, SBOX_surjective⟩

end Sys2Proof.Machine
end

section
/-! SUPPORT. The family of 41_key_schedule.md: rotations are linear over xor, and so are the transforms built from them; a
sliding window shows four consecutive words of one sequence, which turns the rounds of the key schedule into a recurrence;
KEXP's two answers. -/

namespace Sys2Proof.Machine

open Sys2Proof.Claims

/-! ### Rotations and the functions linear over xor (00_scope.md R14, 41_key_schedule.md R101) -/

/-- The model's shifts are a rotation; by 0 the shift to the right would be by a whole word. -/
theorem rotl32_eq_rot {n : Nat} (h : n < 32) (x : Word) : rotl32 x n = rot x n := by
  rw [rotl32, rot, BitVec.rotateLeft_def, Nat.mod_eq_of_lt h]
  split
  case isTrue h0 => rw [h0, BitVec.shiftLeft_zero, BitVec.ushiftRight_eq_zero (by decide), BitVec.or_zero]
  case isFalse => rfl

theorem rot_xor (n : Nat) (x y : Word) : rot (x ^^^ y) n = rot x n ^^^ rot y n := by
  refine BitVec.eq_of_getLsbD_eq fun i hi => ?_
  simp only [rot, BitVec.getLsbD_xor, BitVec.getLsbD_rotateLeft]
  by_cases hn : i < n % 32 <;> simp [hn, hi]

/-- `f` commutes with xor, the linearity that R101, R110 and R135 claim. -/
def XorLinear (f : Word → Word) : Prop := ∀ x y, f (x ^^^ y) = f x ^^^ f y

theorem xorLinear_id : XorLinear fun x => x := fun _ _ => rfl

theorem xorLinear_rotl32 {n : Nat} (h : n < 32) : XorLinear fun x => rotl32 x n := fun x y => by
  simp only [rotl32_eq_rot h, rot_xor]

theorem XorLinear.xor {f g : Word → Word} (hf : XorLinear f) (hg : XorLinear g) : XorLinear fun x => f x ^^^ g x :=
  fun x y => by
    simp only [hf x y, hg x y]
    ac_rfl

/-- As `0 ^ 0 = 0`, the value at 0 is its own xor with itself. -/
theorem XorLinear.map_zero {f : Word → Word} (hf : XorLinear f) : f 0 = 0 :=
  calc f 0 = f (0 ^^^ 0) := by rw [BitVec.xor_self]; rfl
    _ = f 0 ^^^ f 0 := hf 0 0
    _ = 0 := BitVec.xor_self

/-- The shape the four transforms share: the word and two of its rotations. -/
theorem xorLinear_xor_two_rotl32 {m n : Nat} (hm : m < 32) (hn : n < 32) :
    XorLinear fun x => x ^^^ rotl32 x m ^^^ rotl32 x n :=
  (xorLinear_id.xor (xorLinear_rotl32 hm)).xor (xorLinear_rotl32 hn)

theorem xorLinear_lPrime : XorLinear lPrime := xorLinear_xor_two_rotl32 (by decide) (by decide)

theorem xorLinear_lRound : XorLinear lRound :=
  ((xorLinear_xor_two_rotl32 (by decide) (by decide)).xor (xorLinear_rotl32 (by decide))).xor
    (xorLinear_rotl32 (by decide))

theorem xorLinear_p0 : XorLinear p0 := xorLinear_xor_two_rotl32 (by decide) (by decide)

theorem xorLinear_p1 : XorLinear p1 := xorLinear_xor_two_rotl32 (by decide) (by decide)

theorem lPrime_eq_keyTransform (x : Word) : lPrime x = keyTransform x := by
  simp [lPrime, keyTransform, rotl32_eq_rot]

theorem lRound_eq_roundTransform (x : Word) : lRound x = roundTransform x := by
  simp [lRound, roundTransform, rotl32_eq_rot]

theorem p0_eq_rot (x : Word) : p0 x = x ^^^ rot x 9 ^^^ rot x 17 := by simp [p0, rotl32_eq_rot]

theorem p1_eq_rot (x : Word) : p1 x = x ^^^ rot x 15 ^^^ rot x 23 := by simp [p1, rotl32_eq_rot]

/-- Settles O17: each transform is a xor of rotations, rotations are linear over xor, and a linear function maps 0 to 0. -/
theorem transformsAreLinear : Obligations.TransformsAreLinear := fun x y =>
  ⟨⟨lPrime_eq_keyTransform x, lRound_eq_roundTransform x, p0_eq_rot x, p1_eq_rot x⟩,
    ⟨xorLinear_lPrime x y, xorLinear_lRound x y, xorLinear_p0 x y, xorLinear_p1 x y⟩,
    xorLinear_lPrime.map_zero, xorLinear_lRound.map_zero, xorLinear_p0.map_zero, xorLinear_p1.map_zero⟩

/-! ### Words from bytes (00_scope.md R15) -/

theorem be32_eq_packed (b0 b1 b2 b3 : Byte) : be32 b0 b1 b2 b3 = packed b0 b1 b2 b3 := by
  have h := BitVec.setWidth_append_append_append_eq_shiftLeft_setWidth_or (w'''' := 32)
    (b := b0) (b' := b1) (b'' := b2) (b''' := b3)
  rw [BitVec.setWidth_eq] at h
  exact h.symm

theorem wordBe_toList_eq_wordOf {n : Nat} (x : Vector Byte n) (i : Nat) : wordBe x.toList i = wordOf x i :=
  be32_eq_packed ..

/-! ### A sliding window shows four consecutive words of a sequence (10_state.md R35) -/

section Sliding

variable (next : Nat → Window → Word) (X : Window)

/-- The window `X` after `n` rounds, round `i` appending the word that `next i` makes of the window. -/
def windowAfter : Nat → Window
  | 0 => X
  | n + 1 => (windowAfter n).slide (next n (windowAfter n))

/-- The sequence the window slides along: its first word after `n` rounds. -/
def windowWord (n : Nat) : Word := (windowAfter next X n).w0

theorem windowAfter_eq (n : Nat) :
    windowAfter next X n =
      ⟨windowWord next X n, windowWord next X (n + 1), windowWord next X (n + 2), windowWord next X (n + 3)⟩ := rfl

/-- The word a round appends is the first of the window four rounds later. -/
theorem windowWord_add_four (n : Nat) : windowWord next X (n + 4) = next n (windowAfter next X n) := rfl

end Sliding

/-! ### The key schedule (41_key_schedule.md R100 to R103) -/

theorem roundKey_eq (i : Nat) (w0 w1 w2 w3 : Word) :
    roundKey i ⟨w0, w1, w2, w3⟩ = w0 ^^^ keyTransform (substituted (w1 ^^^ w2 ^^^ w3 ^^^ Config.CK i)) := by
  rw [roundKey, lPrime_eq_keyTransform, subWord_eq_substituted]

/-- Word `i` of the key schedule's sequence: the whitened key, then the round keys. -/
def keyWord (key : Vector Byte 16) : Nat → Word := windowWord roundKey (whiten key)

theorem keyWord_of_lt_four (key : Vector Byte 16) {i : Nat} (h : i < 4) :
    keyWord key i = wordOf key i ^^^ Config.FK i := by
  rw [← wordBe_toList_eq_wordOf]
  match i, h with
  | 0, _ | 1, _ | 2, _ | 3, _ => rfl

theorem keyWord_add_four (key : Vector Byte 16) (i : Nat) :
    keyWord key (i + 4) = keyWord key i ^^^
      keyTransform (substituted (keyWord key (i + 1) ^^^ keyWord key (i + 2) ^^^ keyWord key (i + 3) ^^^ Config.CK i)) := by
  rw [keyWord, windowWord_add_four, windowAfter_eq, roundKey_eq]

/-- The `m` rounds from round `n` on append the next `m` words. -/
theorem keyRounds_range' (X : Window) (m n : Nat) :
    keyRounds (List.range' n m) (windowAfter roundKey X n) =
      (List.range' n m).map fun i => windowWord roundKey X (i + 4) := by
  induction m generalizing n with
  | zero => rfl
  | succ m ih =>
    rw [List.range'_succ, List.map_cons, ← ih (n + 1)]
    rfl

theorem keySchedule_eq (key : Vector Byte 16) : keySchedule key = Vector.ofFn fun i => keyWord key (i.val + 4) := by
  have hrounds : keyRounds (List.range 32) (whiten key) = (List.range 32).map fun i => keyWord key (i + 4) := by
    rw [List.range_eq_range']
    exact keyRounds_range' (whiten key) 32 0
  rw [keySchedule, hrounds]
  ext1 i hi
  simp

/-! ### KEXP (41_key_schedule.md R104) -/

theorem execKexp_of_holds {s : State} {key : Vector Byte 16} (h : Holds s.key key) :
    execKexp s = .next (s.putRk (keySchedule key)) := by
  rw [execKexp, readAll_eq_some.mpr h, operand]

theorem execKexp_of_someUnwritten {s : State} (h : SomeUnwritten s.key) : execKexp s = .refused .unwrittenOperand := by
  rw [execKexp, readAll_eq_none.mpr h, operand]

theorem putRk_ofFn (s : State) (f : Fin 32 → Word) :
    s.putRk (Vector.ofFn f) = { s with rk := Vector.ofFn fun i => .written (f i) } := by
  simp [State.putRk, writtenAll]

/-- Settles O11: the sequence of the recurrence is the one the window slides along, and its words from word 4 on are
the round keys. -/
theorem kexpWritesTheRoundKeys : Obligations.KexpWritesTheRoundKeys := by
  refine ⟨decode_encode .kexp, fun s => ⟨fun key h => ?_, execKexp_of_someUnwritten⟩⟩
  refine ⟨keyWord key, fun i hi => keyWord_of_lt_four key hi, fun i _ => keyWord_add_four key i, ?_⟩
  rw [← putRk_ofFn, ← keySchedule_eq]
  exact execKexp_of_holds h

end Sys2Proof.Machine
end

section
/-! SUPPORT. The family of 42_round_function.md: packing a word and cutting it into bytes undo each other; the round is
undone by a round on the reversed window, and so are any rounds by the same keys in reverse order; the rounds slide a
window along the recurrence of R113; what ENC and DEC answer. -/

namespace Sys2Proof.Machine

open Sys2Proof.Claims

/-! ### Bytes of words (00_scope.md R15, 20_memory.md R51) -/

theorem byteOf_eq_byteOfWord (w : Word) (t : Nat) : byteOf w t = byteOfWord w t := by
  rw [byteOf, byteOfWord, Nat.mul_sub]

/-- Byte `t` of the word packed from a byte sequence is the byte packed in place `t`. -/
theorem byteOf_wordBe (x : List Byte) (i : Nat) {t : Nat} (ht : t < 4) :
    byteOf (wordBe x i) t = x.getD (4 * i + t) 0 := by
  rw [wordBe, be32_eq_packed, byteOf, packed]
  match t, ht with
  | 0, _ =>
    rw [BitVec.extractLsb'_append_eq_of_le (by decide), BitVec.extractLsb'_append_eq_of_le (by decide)]
    exact BitVec.extractLsb'_append_eq_left
  | 1, _ =>
    rw [BitVec.extractLsb'_append_eq_of_le (by decide), BitVec.extractLsb'_append_eq_of_le (by decide)]
    exact BitVec.extractLsb'_append_eq_right
  | 2, _ =>
    rw [BitVec.extractLsb'_append_eq_of_le (by decide)]
    exact BitVec.extractLsb'_append_eq_right
  | 3, _ => exact BitVec.extractLsb'_append_eq_right

theorem be32_byteOf (w : Word) : be32 (byteOf w 0) (byteOf w 1) (byteOf w 2) (byteOf w 3) = w := by
  rw [be32_eq_packed, packed, byteOf, byteOf, byteOf, byteOf,
    BitVec.extractLsb'_append_extractLsb'_eq_extractLsb' (by decide),
    BitVec.extractLsb'_append_extractLsb'_eq_extractLsb' (by decide),
    BitVec.extractLsb'_append_extractLsb'_eq_extractLsb' (by decide)]
  exact BitVec.extractLsb'_eq_self

theorem getElem_bytesOfWords {m : Nat} (ws : List Word) {i : Nat} (h : i < m) :
    (bytesOfWords m ws)[i] = byteOf (ws.getD (i / 4) 0) (i % 4) := by
  rw [bytesOfWords, Vector.getElem_ofFn]

theorem getD_bytesOfWords {m : Nat} (ws : List Word) {i t : Nat} (ht : t < 4) (h : 4 * i + t < m) :
    (bytesOfWords m ws).toList.getD (4 * i + t) 0 = byteOf (ws.getD i 0) t := by
  have hdiv : (4 * i + t) / 4 = i := by omega
  have hmod : (4 * i + t) % 4 = t := by omega
  rw [List.getD_eq_getElem _ _ (by simpa using h), Vector.getElem_toList, getElem_bytesOfWords, hdiv, hmod]

/-- The words of the bytes of a word sequence are the sequence. -/
theorem wordBe_bytesOfWords {m : Nat} (ws : List Word) {i : Nat} (h : 4 * i + 3 < m) :
    wordBe (bytesOfWords m ws).toList i = ws.getD i 0 := by
  have hbyte : ∀ t < 4, (bytesOfWords m ws).toList.getD (4 * i + t) 0 = byteOf (ws.getD i 0) t :=
    fun t ht => getD_bytesOfWords ws ht (by omega)
  rw [wordBe, hbyte 1 (by decide), hbyte 2 (by decide), hbyte 3 (by decide), ← Nat.add_zero (4 * i),
    hbyte 0 (by decide), be32_byteOf]

/-! ### The round and its inverse (42_round_function.md R111) -/

/-- The word a round appends, in the words of the statements. -/
theorem cipherRound_eq (X : Window) (k : Word) :
    cipherRound X k = X.slide (X.w0 ^^^ roundTransform (substituted (X.w1 ^^^ X.w2 ^^^ X.w3 ^^^ k))) := by
  rw [cipherRound, lRound_eq_roundTransform, subWord_eq_substituted]

/-- Settles O16: the round xors onto one word a function of the three words it keeps, and xoring it again takes it
off. -/
theorem cipherRoundIsABijection : Obligations.CipherRoundIsABijection := by
  intro k y0 y1 y2 y3 X
  constructor
  · simp [cipherRound_eq, Window.slide, BitVec.xor_assoc]
  · obtain ⟨x0, x1, x2, x3⟩ := X
    intro h
    rw [cipherRound_eq, Window.slide] at h
    obtain ⟨rfl, rfl, rfl, rfl⟩ := Window.mk.inj h
    simp [BitVec.xor_assoc]

/-- The reverse permutation of R114, on windows. -/
def Window.reversed (X : Window) : Window := ⟨X.w3, X.w2, X.w1, X.w0⟩

/-- A round on the reversed window takes the appended word off again: the three words between are the same, reversed. -/
theorem cipherRound_reversed_cipherRound (X : Window) (k : Word) :
    cipherRound (cipherRound X k).reversed k = X.reversed := by
  have hcomm : X.w3 ^^^ X.w2 ^^^ X.w1 ^^^ k = X.w1 ^^^ X.w2 ^^^ X.w3 ^^^ k := by ac_rfl
  simp only [cipherRound, Window.slide, Window.reversed, hcomm]
  rw [BitVec.xor_assoc X.w0, BitVec.xor_self, BitVec.xor_zero]

/-- Any rounds are undone, on the reversed window, by the same keys in reverse order (R117). -/
theorem foldl_cipherRound_reverse (keys : List Word) (X : Window) :
    keys.reverse.foldl cipherRound (keys.foldl cipherRound X).reversed = X.reversed := by
  induction keys generalizing X with
  | nil => rfl
  | cons k keys ih =>
    rw [List.reverse_cons, List.foldl_append, List.foldl_cons, List.foldl_cons, List.foldl_nil, ih]
    exact cipherRound_reversed_cipherRound X k

/-! ### The round keys in the order of use (42_round_function.md R112) -/

theorem roundKeyFor_false (rk : Vector Word 32) (r : Fin 32) : roundKeyFor rk r.val false = rk[r] := by
  simp [roundKeyFor]

theorem roundKeyFor_true (rk : Vector Word 32) (r : Fin 32) : roundKeyFor rk r.val true = rk[31 - r.val] := by
  have h : 31 - r.val < 32 := by omega
  simp [roundKeyFor, h]

/-- The 32 round keys in the order direction `d` uses them. -/
def keysInOrder (rk : Vector Word 32) (d : Bool) : List Word := if d then rk.toList.reverse else rk.toList

theorem length_keysInOrder (rk : Vector Word 32) (d : Bool) : (keysInOrder rk d).length = 32 := by
  cases d <;> simp [keysInOrder]

theorem map_roundKeyFor (rk : Vector Word 32) (d : Bool) :
    (List.range 32).map (fun r => roundKeyFor rk r d) = keysInOrder rk d := by
  refine List.ext_getElem (by rw [List.length_map, List.length_range, length_keysInOrder]) fun i hi _ => ?_
  have hi : i < 32 := by simpa using hi
  cases d with
  | false => simpa [keysInOrder] using roundKeyFor_false rk ⟨i, hi⟩
  | true => simpa [keysInOrder] using roundKeyFor_true rk ⟨i, hi⟩

theorem cipherRounds_eq_foldl (X : Window) (rk : Vector Word 32) (d : Bool) :
    cipherRounds X rk d = (keysInOrder rk d).foldl cipherRound X := by
  rw [← map_roundKeyFor, List.foldl_map, cipherRounds]

theorem keysInOrder_not (rk : Vector Word 32) (d : Bool) : keysInOrder rk (!d) = (keysInOrder rk d).reverse := by
  cases d <;> simp [keysInOrder]

theorem keysInOrder_reverse (rk : Vector Word 32) (d : Bool) : keysInOrder rk.reverse d = keysInOrder rk (!d) := by
  cases d <;> simp [keysInOrder, Vector.toList_reverse]

theorem crypt_reverse (blk : Vector Byte 16) (rk : Vector Word 32) (d : Bool) :
    crypt blk rk.reverse d = crypt blk rk (!d) := by
  rw [crypt, crypt, cipherRounds_eq_foldl, cipherRounds_eq_foldl, keysInOrder_reverse]

/-! ### The two directions undo each other (42_round_function.md R117) -/

theorem unpackBlock_bytesOfWords (X : Window) : unpackBlock (bytesOfWords 16 (reverseWords X)) = X.reversed := by
  rw [unpackBlock, wordBe_bytesOfWords _ (by decide), wordBe_bytesOfWords _ (by decide),
    wordBe_bytesOfWords _ (by decide), wordBe_bytesOfWords _ (by decide)]
  rfl

theorem getD_reverseWords_reversed_unpackBlock (blk : Vector Byte 16) {i : Nat} (h : i < 4) :
    (reverseWords (unpackBlock blk).reversed).getD i 0 = wordBe blk.toList i := by
  match i, h with
  | 0, _ | 1, _ | 2, _ | 3, _ => rfl

theorem bytesOfWords_unpackBlock (blk : Vector Byte 16) :
    bytesOfWords 16 (reverseWords (unpackBlock blk).reversed) = blk := by
  ext1 i hi
  rw [getElem_bytesOfWords, getD_reverseWords_reversed_unpackBlock blk (by omega),
    byteOf_wordBe _ _ (Nat.mod_lt i (by decide)), Nat.div_add_mod, List.getD_eq_getElem _ _ (by simpa using hi),
    Vector.getElem_toList]

/-- The output is the window after the rounds, reversed, so the other direction starts where `foldl_cipherRound_reverse`
does. -/
theorem crypt_crypt_not (blk : Vector Byte 16) (rk : Vector Word 32) (d : Bool) :
    crypt (crypt blk rk d) rk (!d) = blk := by
  rw [crypt, crypt, unpackBlock_bytesOfWords, cipherRounds_eq_foldl, cipherRounds_eq_foldl, keysInOrder_not,
    foldl_cipherRound_reverse, bytesOfWords_unpackBlock]

/-! ### The recurrence the rounds compute (42_round_function.md R113, R114) -/

/-- The word round `r` appends, in the words of the statements. -/
def roundWord (rk : Vector Word 32) (d : Bool) (r : Nat) (X : Window) : Word :=
  X.w0 ^^^ roundTransform (substituted (X.w1 ^^^ X.w2 ^^^ X.w3 ^^^ roundKeyFor rk r d))

section Recurrence

variable (blk : Vector Byte 16) (rk : Vector Word 32) (d : Bool)

theorem foldl_range_cipherRound (X : Window) (n : Nat) :
    (List.range n).foldl (fun X r => cipherRound X (roundKeyFor rk r d)) X = windowAfter (roundWord rk d) X n := by
  induction n with
  | zero => rfl
  | succ n ih =>
    rw [List.range_succ, List.foldl_append, ih, List.foldl_cons, List.foldl_nil, cipherRound_eq]
    rfl

/-- Word `i` of the cipher's sequence: the block, then the word each round appends. -/
def cryptWord : Nat → Word := windowWord (roundWord rk d) (unpackBlock blk)

theorem cryptWord_of_lt_four {i : Nat} (h : i < 4) : cryptWord blk rk d i = wordOf blk i := by
  rw [← wordBe_toList_eq_wordOf]
  match i, h with
  | 0, _ | 1, _ | 2, _ | 3, _ => rfl

theorem cryptWord_add_four (r : Nat) :
    cryptWord blk rk d (r + 4) = cryptWord blk rk d r ^^^
      roundTransform (substituted (cryptWord blk rk d (r + 1) ^^^ cryptWord blk rk d (r + 2)
        ^^^ cryptWord blk rk d (r + 3) ^^^ roundKeyFor rk r d)) := by
  rw [cryptWord, windowWord_add_four, windowAfter_eq, roundWord]

theorem cipherRounds_unpackBlock :
    cipherRounds (unpackBlock blk) rk d =
      ⟨cryptWord blk rk d 32, cryptWord blk rk d 33, cryptWord blk rk d 34, cryptWord blk rk d 35⟩ :=
  foldl_range_cipherRound rk d (unpackBlock blk) 32

theorem getD_reverseWords_cipherRounds {i : Nat} (h : i < 4) :
    (reverseWords (cipherRounds (unpackBlock blk) rk d)).getD i 0 = cryptWord blk rk d (35 - i) := by
  rw [cipherRounds_unpackBlock]
  match i, h with
  | 0, _ | 1, _ | 2, _ | 3, _ => rfl

theorem getElem_crypt {i : Nat} (h : i < 16) :
    (crypt blk rk d)[i] = byteOfWord (cryptWord blk rk d (35 - i / 4)) (i % 4) := by
  rw [crypt, getElem_bytesOfWords, getD_reverseWords_cipherRounds blk rk d (by omega), byteOf_eq_byteOfWord]

theorem putBlkOut_crypt (s : State) :
    s.putBlkOut (crypt blk rk d) = { s with
      blkOut := Vector.ofFn fun i => .written (byteOfWord (cryptWord blk rk d (35 - i.val / 4)) (i.val % 4)) } := by
  simp [State.putBlkOut, writtenAll, getElem_crypt]

end Recurrence

/-! ### ENC and DEC (42_round_function.md R114 to R117) -/

theorem eq_writtenAll_of_holds {α : Type} {n : Nat} {r : Vector (Slot α) n} {x : Vector α n} (h : Holds r x) :
    r = writtenAll x :=
  Vector.ext fun i hi => (h i hi).trans (getElem_writtenAll x hi).symm

theorem cryptCommand_of_holds (d : Bool) {s : State} {blk : Vector Byte 16} {rk : Vector Word 32}
    (hblk : Holds s.blkIn blk) (hrk : Holds s.rk rk) :
    cryptCommand d s = .next (s.putBlkOut (crypt blk rk d)) := by
  rw [cryptCommand, readAll_eq_some.mpr hblk, readAll_eq_some.mpr hrk, operand, operand]

theorem cryptCommand_of_someUnwritten (d : Bool) {s : State} (h : SomeUnwritten s.blkIn ∨ SomeUnwritten s.rk) :
    cryptCommand d s = .refused .unwrittenOperand := by
  rw [cryptCommand]
  rcases h with hblk | hrk
  · rw [readAll_eq_none.mpr hblk, operand]
  · rw [readAll_eq_none.mpr hrk]
    cases readAll s.blkIn <;> rfl

/-- Settles O12: the rounds compute the recurrence, and forward round `r` uses key `r`. -/
theorem encEncryptsTheBlock : Obligations.EncEncryptsTheBlock := by
  refine ⟨decode_encode .enc, fun s => ⟨fun blk rk hblk hrk => ?_, cryptCommand_of_someUnwritten false⟩⟩
  refine ⟨cryptWord blk rk false, fun i hi => cryptWord_of_lt_four blk rk false hi, fun r => ?_, ?_⟩
  · rw [cryptWord_add_four, roundKeyFor_false]
  · rw [← putBlkOut_crypt]
    exact cryptCommand_of_holds false hblk hrk

/-- Settles O13: the rounds compute the recurrence, and reverse round `r` uses key `31 - r`. -/
theorem decDecryptsTheBlock : Obligations.DecDecryptsTheBlock := by
  refine ⟨decode_encode .dec, fun s => ⟨fun blk rk hblk hrk => ?_, cryptCommand_of_someUnwritten true⟩⟩
  refine ⟨cryptWord blk rk true, fun i hi => cryptWord_of_lt_four blk rk true hi, fun r => ?_, ?_⟩
  · rw [cryptWord_add_four, roundKeyFor_true]
  · rw [← putBlkOut_crypt]
    exact cryptCommand_of_holds true hblk hrk

/-- Settles O14: the reversed register holds the reversed keys, which forward are the keys in reverse order. -/
theorem decIsEncUnderReversedKeys : Obligations.DecIsEncUnderReversedKeys := by
  intro s blk rk hblk hrk
  have hrev : Holds (Vector.ofFn fun i : Fin 32 => Slot.written rk[31 - i.val]) rk.reverse := fun i hi => by simp
  refine ⟨_, _, cryptCommand_of_holds true hblk hrk, cryptCommand_of_holds false hblk hrev, ?_⟩
  rw [State.putBlkOut_blkOut, State.putBlkOut_blkOut, crypt_reverse, Bool.not_false]

/-- The two commands undo each other, whichever comes first. -/
theorem cryptCommand_then_cryptCommand_not (d : Bool) {s : State} {blk : Vector Byte 16} {rk : Vector Word 32}
    (hblk : Holds s.blkIn blk) (hrk : Holds s.rk rk) :
    ∃ t u : State, cryptCommand d s = .next t ∧ cryptCommand (!d) { t with blkIn := t.blkOut } = .next u ∧
      u.blkOut = s.blkIn := by
  have hout : Holds (s.putBlkOut (crypt blk rk d)).blkOut (crypt blk rk d) := fun _ h => getElem_writtenAll _ h
  refine ⟨_, _, cryptCommand_of_holds d hblk hrk, cryptCommand_of_holds (!d) hout hrk, ?_⟩
  rw [State.putBlkOut_blkOut, crypt_crypt_not, eq_writtenAll_of_holds hblk]

/-- Settles O15: ENC and DEC are the command of the two directions, each undone by the other. -/
theorem decryptionInvertsEncryption : Obligations.DecryptionInvertsEncryption := fun _ _ _ hblk hrk =>
  ⟨cryptCommand_then_cryptCommand_not false hblk hrk, cryptCommand_then_cryptCommand_not true hblk hrk⟩

end Sys2Proof.Machine
end

section
/-! SUPPORT. The family of 43_hash_padding.md: the padded length as a multiple of 64; the padded message byte by byte; a
length below 2^64 can be read off its big-endian field; what a message command and PAD answer on a written message. -/

namespace Sys2Proof.Machine

open Sys2Proof.Claims

/-! ### The padded length (43_hash_padding.md R125, R126) -/

theorem padlen_eq_paddedLength (L : Nat) : padlen L = paddedLength L := by
  unfold padlen padzeros paddedLength
  omega

theorem padlen_mod (L : Nat) : padlen L % 64 = 0 := by
  rw [padlen_eq_paddedLength, paddedLength, Nat.mul_mod_right]

theorem padzeros_lt (L : Nat) : padzeros L < 64 := Nat.mod_lt _ (by decide)

theorem add_nine_le_padlen (L : Nat) : L + 9 ≤ padlen L := by
  unfold padlen
  omega

theorem padlen_le_add (L : Nat) : padlen L ≤ L + 72 := by
  have hzeros : padzeros L < 64 := padzeros_lt L
  unfold padlen
  omega

/-- As `padlen L` is at most 63 more than `L + 9`, no smaller multiple of 64 reaches `L + 9`. -/
theorem padlen_le_of_mod {L n : Nat} (hmod : n % 64 = 0) (hle : L + 9 ≤ n) : padlen L ≤ n := by
  have hbound : padlen L ≤ L + 72 := padlen_le_add L
  have hpadlen : padlen L % 64 = 0 := padlen_mod L
  omega

theorem nblocks_eq (L : Nat) : nblocks L = (L + 8) / 64 + 1 := by
  rw [nblocks, padlen_eq_paddedLength, paddedLength, Nat.mul_div_cancel_left _ (by decide)]

theorem add_padzeros_mod (L : Nat) : (L + 1 + padzeros L) % 64 = 56 := by
  have hpadlen : (L + 1 + padzeros L + 8) % 64 = 0 := padlen_mod L
  omega

/-- Settles O18: the two forms of the padded length agree, and the bounds on the zero count bound it. -/
theorem paddedLengthIsLeastMultiple : Obligations.PaddedLengthIsLeastMultiple := fun L =>
  ⟨rfl, padlen_eq_paddedLength L, padlen_mod L, add_nine_le_padlen L, padlen_le_add L, fun _ => padlen_le_of_mod,
    fun _ => padlen_mono, rfl, nblocks_eq L, by rw [nblocks_eq]; exact Nat.le_add_left 1 _, padzeros_lt L,
    add_padzeros_mod L⟩

/-! ### The length field (00_scope.md R15) -/

theorem getD_be64 (n : Nat) {t : Nat} (h : t < 8) : (be64 n).getD t 0 = BitVec.ofNat 8 (n / 256 ^ (7 - t)) := by
  rw [List.getD_eq_getElem _ _ (by rwa [be64_length])]
  simp only [be64, List.getElem_map, List.getElem_range]
  rw [Nat.shiftRight_eq_div_pow, Nat.pow_mul]

/-- Bit `i` of the number is bit `i % 8` of the byte that counts `i / 8` from the end. -/
theorem getLsbD_be64 (n : Nat) {i : Nat} (h : i < 64) :
    ((be64 n).getD (7 - i / 8) 0).getLsbD (i % 8) = n.testBit i := by
  have hplace : 7 - (7 - i / 8) = i / 8 := by omega
  have hmod : i % 8 < 8 := Nat.mod_lt i (by decide)
  rw [getD_be64 n (by omega), hplace, BitVec.getLsbD_ofNat, decide_eq_true hmod, Bool.true_and,
    show (256 : Nat) = 2 ^ 8 from rfl, ← Nat.pow_mul, Nat.testBit_div_two_pow, Nat.mod_add_div]

theorem be64_injective {a b : Nat} (ha : a < 2 ^ 64) (hb : b < 2 ^ 64) (h : be64 a = be64 b) : a = b := by
  refine Nat.eq_of_testBit_eq fun i => ?_
  by_cases hi : i < 64
  · rw [← getLsbD_be64 a hi, ← getLsbD_be64 b hi, h]
  · have hpow : 2 ^ 64 ≤ 2 ^ i := Nat.pow_le_pow_right (by decide) (by omega)
    rw [Nat.testBit_lt_two_pow (ha.trans_le hpow), Nat.testBit_lt_two_pow (hb.trans_le hpow)]

/-! ### The padded message (43_hash_padding.md R127, R129) -/

/-- Settles O20: the last 8 bytes give the length, and the first bytes, that many, give the message. -/
theorem paddingIsInjective : Obligations.PaddingIsInjective := by
  intro m m' hm hm' h
  have htail : be64 (8 * m.length) = be64 (8 * m'.length) := by
    rw [pad, pad, ← List.append_assoc, ← List.append_assoc, ← List.append_assoc, ← List.append_assoc] at h
    exact List.append_inj_right' h (by rw [be64_length, be64_length])
  have hbits : 8 * m.length = 8 * m'.length := be64_injective (by omega) (by omega) htail
  exact List.append_inj_left h (by omega)

/-- Byte by byte, the four parts of the padded message are the four clauses of `paddedByte`. -/
theorem getD_pad (m : List Byte) {a : Nat} (h : a < paddedLength m.length) : (pad m).getD a 0 = paddedByte m a := by
  have hlen : paddedLength m.length = m.length + 1 + padzeros m.length + 8 := (padlen_eq_paddedLength _).symm
  rw [hlen] at h
  rw [pad, paddedByte, hlen]
  split
  · next hmsg => exact List.getD_append _ _ _ _ hmsg
  · rw [List.getD_append_right _ _ _ _ (by omega)]
    split
    · next hmark => rw [hmark, Nat.sub_self]; rfl
    · rw [List.getD_append_right _ _ _ _ (by rw [List.length_singleton]; omega), List.length_singleton]
      split
      · rw [List.getD_append _ _ _ _ (by rw [List.length_replicate]; omega), List.getD_replicate _ (by omega)]
      · have hplace : 7 - (a - m.length - 1 - padzeros m.length) = m.length + 1 + padzeros m.length + 8 - 1 - a := by
          omega
        rw [List.getD_append_right _ _ _ _ (by rw [List.length_replicate]; omega), List.length_replicate,
          getD_be64 _ (by omega), hplace]

/-! ### PAD (43_hash_padding.md R128) -/

theorem readBytes_of_holdsMessage {mem : Memory} {m : List Byte} (h : HoldsMessage mem m) :
    mem.readBytes 0 m.length = some m :=
  (mem.readBytes_eq_some _ _ _).mpr ⟨rfl, fun i hi => by rw [Nat.zero_add]; exact h i hi⟩

/-- A command whose operand is the message goes on with it when its length is in range and its bytes are written. -/
theorem withMessage_of_holds {s : State} {L : Len} {m : List Byte} (hL : s.mlen = .written L)
    (hle : L.toNat ≤ s.msgMax.val) (hlen : m.length = L.toNat) (hm : HoldsMessage s.msg m)
    (k : List Byte → Result) : withMessage s k = k m := by
  have hrange : outOfRange s L = false := by rw [Bool.eq_false_iff, Ne, outOfRange_iff]; omega
  rw [withMessage, Slot.get?_eq_some.mpr hL, operand, inRange, hrange, ← hlen, readBytes_of_holdsMessage hm]
  rfl

theorem execPad_of_holds {s : State} {L : Len} {m : List Byte} (hL : s.mlen = .written L)
    (hle : L.toNat ≤ s.msgMax.val) (hlen : m.length = L.toNat) (hm : HoldsMessage s.msg m) :
    execPad s = .next (s.putPadded (pad m)) :=
  withMessage_of_holds hL hle hlen hm _

/-- Settles O19: PAD stores the padded message from offset 0, so PMSG holds its bytes below its length and beyond it
what it held. -/
theorem padWritesThePaddedMessage : Obligations.PadWritesThePaddedMessage := by
  intro s L m hL hle hlen hm
  have hpad : (pad m).length = paddedLength L.toNat := by rw [pad_length, padlen_eq_paddedLength, hlen]
  refine ⟨s.pmsg.writeBytes 0 (pad m), ?_, fun a ha => ?_, fun a ha => ?_⟩
  · rw [← hpad]
    exact execPad_of_holds hL hle hlen hm
  · rw [Memory.read_writeBytes, if_pos ⟨a.zero_le, by omega⟩, Nat.sub_zero, getD_pad m (by rwa [hlen])]
  · rw [Memory.read_writeBytes, if_neg (by omega)]

end Sys2Proof.Machine
end

section
/-! SUPPORT. The family of 44_hash_compression.md: FF and GG bit by bit; the expansion, an appending fold, and the
rounds as the recurrences of R139 and R141; what HINIT, HBLK, HDIG and HASH answer; then the streaming script of R150,
each action of which keeps the padded message and the rest of the script ready for the next. -/

namespace Sys2Proof.Machine

open Sys2Proof.Claims

/-! ### FF and GG (44_hash_compression.md R136, R137) -/

theorem ff_eq (j : Nat) (x y z : Word) :
    ff j x y z = if j < 16 then x ^^^ y ^^^ z else (x &&& y) ||| (x &&& z) ||| (y &&& z) := by
  simp only [ff, Nat.lt_succ_iff]

theorem gg_eq (j : Nat) (x y z : Word) :
    gg j x y z = if j < 16 then x ^^^ y ^^^ z else (x &&& y) ||| (~~~x &&& z) := by
  simp only [gg, Nat.lt_succ_iff]

/-- The or of the three products of two bits is their majority. -/
theorem majority_eq_true_iff (x y z : Bool) :
    (x && y || x && z || y && z) = true ↔ 2 ≤ x.toNat + y.toNat + z.toNat := by
  revert x y z; decide

/-- Settles O21: below 16 both are the xor; from 16 on FF is the or of the products, GG the two halves of a choice. -/
theorem booleanFunctionsAreBitwise : Obligations.BooleanFunctionsAreBitwise := by
  refine fun j x y z b hb => ⟨fun hj => ⟨?_, ?_⟩, fun hj => ⟨?_, ?_⟩⟩
  · rw [ff_eq, if_pos (by omega), BitVec.getLsbD_xor, BitVec.getLsbD_xor]
  · rw [gg_eq, if_pos (by omega), BitVec.getLsbD_xor, BitVec.getLsbD_xor]
  · rw [ff_eq, if_neg (by omega), ← majority_eq_true_iff]
    simp only [BitVec.getLsbD_or, BitVec.getLsbD_and]
  · rw [gg_eq, if_neg (by omega), BitVec.getLsbD_or, BitVec.getLsbD_and, BitVec.getLsbD_and, BitVec.getLsbD_not,
      decide_eq_true hb]
    cases x.getLsbD b <;> simp

/-! ### HINIT (44_hash_compression.md R145) -/

/-- Settles O22: HINIT reads nothing, so it goes on in every state. -/
theorem hinitLoadsTheInitialValue : Obligations.HinitLoadsTheInitialValue :=
  ⟨decode_encode .hinit, fun _ => rfl⟩

/-! ### The expansion (44_hash_compression.md R139) -/

theorem length_foldl_expandStep (js : List Nat) (W : List Word) :
    (js.foldl expandStep W).length = W.length + js.length := by
  induction js generalizing W with
  | nil => rfl
  | cons j js ih =>
    rw [List.foldl_cons, ih, expandStep, List.length_append, List.length_singleton, List.length_cons]
    omega

/-- A step appends a word, so the words already there stay in their places. -/
theorem getD_foldl_expandStep (js : List Nat) {W : List Word} {i : Nat} (h : i < W.length) :
    (js.foldl expandStep W).getD i 0 = W.getD i 0 := by
  induction js generalizing W with
  | nil => rfl
  | cons j js ih =>
    rw [List.foldl_cons, ih (by rw [expandStep, List.length_append]; omega), expandStep, List.getD_append _ _ _ _ h]

/-- The expansion after `n` of its 52 steps. -/
def expandPrefix (blk : Vector Byte 64) (n : Nat) : List Word :=
  (List.range' 16 n).foldl expandStep ((List.range 16).map fun i => wordBe blk.toList i)

theorem length_expandPrefix (blk : Vector Byte 64) (n : Nat) : (expandPrefix blk n).length = 16 + n := by
  rw [expandPrefix, length_foldl_expandStep, List.length_map, List.length_range, List.length_range']

theorem expandPrefix_succ (blk : Vector Byte 64) (n : Nat) :
    expandPrefix blk (n + 1) = expandStep (expandPrefix blk n) (16 + n) := by
  rw [expandPrefix, List.range'_1_concat, List.foldl_append]
  rfl

/-- `W[j]` of the block's expansion. -/
def expandedWord (blk : Vector Byte 64) (j : Nat) : Word := (expand blk).getD j 0

/-- The words the expansion holds after `n` steps are those of the whole. -/
theorem getD_expandPrefix (blk : Vector Byte 64) {n j : Nat} (hn : n ≤ 52) (hj : j < 16 + n) :
    (expandPrefix blk n).getD j 0 = expandedWord blk j := by
  have hsplit : List.range' 16 52 = List.range' 16 n ++ List.range' (16 + n) (52 - n) := by
    rw [List.range'_append_1, Nat.add_sub_cancel' hn]
  rw [expandedWord, expand, hsplit, List.foldl_append]
  exact (getD_foldl_expandStep _ (hj.trans_le (length_expandPrefix blk n).ge)).symm

theorem expandedWord_of_lt (blk : Vector Byte 64) {i : Nat} (h : i < 16) : expandedWord blk i = wordOf blk i := by
  rw [← getD_expandPrefix blk (Nat.zero_le 52) h, ← wordBe_toList_eq_wordOf]
  simp [expandPrefix, h]

theorem expandedWord_of_ge (blk : Vector Byte 64) {j : Nat} (hj : 16 ≤ j) (hlt : j < 68) :
    expandedWord blk j =
      p1 (expandedWord blk (j - 16) ^^^ expandedWord blk (j - 9) ^^^ rot (expandedWord blk (j - 3)) 15)
        ^^^ rot (expandedWord blk (j - 13)) 7 ^^^ expandedWord blk (j - 6) := by
  obtain ⟨n, rfl⟩ := Nat.exists_eq_add_of_le hj
  have hearlier : ∀ {i}, i < 16 + n → (expandPrefix blk n).getD i 0 = expandedWord blk i :=
    getD_expandPrefix blk (by omega)
  rw [← getD_expandPrefix blk (n := n + 1) (by omega) (by omega), expandPrefix_succ, expandStep,
    List.getD_append_right _ _ _ _ (length_expandPrefix blk n).le, length_expandPrefix, Nat.sub_self,
    List.getD_cons_zero, hearlier (by omega), hearlier (by omega), hearlier (by omega), hearlier (by omega),
    hearlier (by omega), rotl32_eq_rot (by decide), rotl32_eq_rot (by decide)]

theorem getD_deriveWords (blk : Vector Byte 64) {j : Nat} (h : j < 64) :
    (deriveWords (expand blk)).getD j 0 = expandedWord blk j ^^^ expandedWord blk (j + 4) := by
  rw [deriveWords, List.getD_eq_getElem _ _ (by simpa using h), List.getElem_map, List.getElem_range]
  rfl

/-! ### The rounds (44_hash_compression.md R138, R141, R142) -/

/-- The working registers after `n` rounds from the state `v` on the block `blk`. -/
def regsAfter (v : Vector Word 8) (blk : Vector Byte 64) : Nat → Regs
  | 0 => loadRegs v
  | n + 1 =>
    cfRound n (regsAfter v blk n) (expandedWord blk n) (expandedWord blk n ^^^ expandedWord blk (n + 4))

theorem foldl_cfRound (v : Vector Word 8) (blk : Vector Byte 64) {n : Nat} (h : n ≤ 64) :
    (List.range n).foldl (fun r j => cfRound j r ((expand blk).getD j 0) ((deriveWords (expand blk)).getD j 0))
      (loadRegs v) = regsAfter v blk n := by
  induction n with
  | zero => rfl
  | succ n ih =>
    rw [List.range_succ, List.foldl_append, ih (by omega), List.foldl_cons, List.foldl_nil,
      getD_deriveWords blk (by omega)]
    rfl

theorem cf_eq (v : Vector Word 8) (blk : Vector Byte 64) :
    cf v blk = Vector.ofFn fun i => v[i] ^^^ (regWords (regsAfter v blk 64))[i] := by
  rw [cf, cfRounds, foldl_cfRound v blk le_rfl]

theorem roundConst_eq (j : Nat) :
    roundConst j = rot (if j < 16 then Config.TJ_LO else Config.TJ_HI) (j % 32) := by
  rw [roundConst, tConst, rotl32_eq_rot (Nat.mod_lt j (by decide))]
  simp only [Nat.lt_succ_iff]

theorem ss1_eq (j : Nat) (r : Regs) :
    ss1 j r = rot (rot r.a 12 + r.e + rot (if j < 16 then Config.TJ_LO else Config.TJ_HI) (j % 32)) 7 := by
  rw [ss1, roundConst_eq, rotl32_eq_rot (by decide), rotl32_eq_rot (by decide)]

theorem ss2_eq (j : Nat) (r : Regs) : ss2 j r = ss1 j r ^^^ rot r.a 12 := by
  rw [ss2, rotl32_eq_rot (by decide)]

theorem tt1_eq (j : Nat) (r : Regs) (w1 : Word) :
    tt1 j r w1 = (if j < 16 then r.a ^^^ r.b ^^^ r.c else (r.a &&& r.b) ||| (r.a &&& r.c) ||| (r.b &&& r.c)) + r.d
      + (rot (rot r.a 12 + r.e + rot (if j < 16 then Config.TJ_LO else Config.TJ_HI) (j % 32)) 7 ^^^ rot r.a 12)
      + w1 := by
  rw [tt1, ff_eq, ss2_eq, ss1_eq]

theorem tt2_eq (j : Nat) (r : Regs) (w : Word) :
    tt2 j r w = (if j < 16 then r.e ^^^ r.f ^^^ r.g else (r.e &&& r.f) ||| (~~~r.e &&& r.g)) + r.h
      + rot (rot r.a 12 + r.e + rot (if j < 16 then Config.TJ_LO else Config.TJ_HI) (j % 32)) 7 + w := by
  rw [tt2, gg_eq, ss1_eq]

/-! ### HBLK (44_hash_compression.md R146) -/

theorem execHblk_of_holds {s : State} {v : Vector Word 8} {blk : Vector Byte 64} (hv : Holds s.v v)
    (hblk : Holds s.hb blk) : execHblk s = .next (s.putV (cf v blk)) := by
  rw [execHblk, readAll_eq_some.mpr hv, readAll_eq_some.mpr hblk, operand, operand]

theorem execHblk_of_someUnwritten {s : State} (h : SomeUnwritten s.v ∨ SomeUnwritten s.hb) :
    execHblk s = .refused .unwrittenOperand := by
  rw [execHblk]
  rcases h with hv | hhb
  · rw [readAll_eq_none.mpr hv, operand]
  · rw [readAll_eq_none.mpr hhb]
    cases readAll s.v <;> rfl

/-- Settles O23: the expansion and the rounds are the recurrences, and HBLK stores their feedback. -/
theorem hblkFoldsOneBlock : Obligations.HblkFoldsOneBlock := by
  refine ⟨decode_encode .hblk, fun s => ⟨fun v blk hv hblk => ?_, execHblk_of_someUnwritten⟩⟩
  refine ⟨expandedWord blk, fun j => (regsAfter v blk j).a, fun j => (regsAfter v blk j).b,
    fun j => (regsAfter v blk j).c, fun j => (regsAfter v blk j).d, fun j => (regsAfter v blk j).e,
    fun j => (regsAfter v blk j).f, fun j => (regsAfter v blk j).g, fun j => (regsAfter v blk j).h,
    fun i hi => expandedWord_of_lt blk hi, fun j hj hlt => ?_, ⟨rfl, rfl, rfl, rfl, rfl, rfl, rfl, rfl⟩,
    fun j _ => ?_, ?_⟩
  · rw [expandedWord_of_ge blk hj hlt, p1_eq_rot]
  · exact ⟨rfl, rotl32_eq_rot (n := 9) (by decide) (regsAfter v blk j).b, rfl, tt1_eq j _ _, rfl,
      rotl32_eq_rot (n := 19) (by decide) (regsAfter v blk j).f, rfl, (p0_eq_rot _).trans (by rw [tt2_eq])⟩
  · refine (execHblk_of_holds hv hblk).trans ?_
    rw [cf_eq]
    rfl

/-! ### HDIG (44_hash_compression.md R143, R147) -/

theorem putDig_digest (s : State) (v : Vector Word 8) :
    s.putDig (digest v) = { s with
      dig := Vector.ofFn fun i => .written (byteOfWord (v.toList.getD (i.val / 4) 0) (i.val % 4)) } := by
  simp [State.putDig, writtenAll, digest, getElem_bytesOfWords, byteOf_eq_byteOfWord]

theorem execHdig_of_holds {s : State} {v : Vector Word 8} (h : Holds s.v v) :
    execHdig s = .next (s.putDig (digest v)) := by
  rw [execHdig, readAll_eq_some.mpr h, operand]

theorem execHdig_of_someUnwritten {s : State} (h : SomeUnwritten s.v) : execHdig s = .refused .unwrittenOperand := by
  rw [execHdig, readAll_eq_none.mpr h, operand]

/-- Settles O24: byte `4i + t` of the digest is byte `t` of word `i` of the state. -/
theorem hdigSerialisesTheState : Obligations.HdigSerialisesTheState := by
  refine ⟨decode_encode .hdig, fun s => ⟨fun v h => ?_, execHdig_of_someUnwritten⟩⟩
  rw [← putDig_digest]
  exact execHdig_of_holds h

/-! ### HASH (44_hash_compression.md R144, R148) -/

theorem foldBlocks_succ (p : List Byte) (n : Nat) (v : Vector Word 8) :
    foldBlocks p (n + 1) v = cf (foldBlocks p n v) (blockAt p n) := by
  rw [foldBlocks, List.range_succ, List.foldl_append]
  rfl

theorem blockAt_pad (m : List Byte) {n : Nat} (h : n < paddedLength m.length / 64) :
    blockAt (pad m) n = paddedBlock m n := by
  ext1 i hi
  rw [blockAt, paddedBlock, Vector.getElem_ofFn, Vector.getElem_ofFn, getD_pad m (by omega)]

theorem execHash_of_holds {s : State} {L : Len} {m : List Byte} (hL : s.mlen = .written L)
    (hle : L.toNat ≤ s.msgMax.val) (hlen : m.length = L.toNat) (hm : HoldsMessage s.msg m) :
    execHash s = .next (s.putDig (digest (foldBlocks (pad m) (paddedLength L.toNat / 64) Config.IV))) := by
  rw [← padlen_eq_paddedLength, ← hlen]
  exact withMessage_of_holds hL hle hlen hm _

/-- Settles O25: the states are those of the fold over the padded blocks. -/
theorem hashFoldsThePaddedMessage : Obligations.HashFoldsThePaddedMessage := by
  intro s L m hL hle hlen hm
  refine ⟨fun n => foldBlocks (pad m) n Config.IV, rfl, fun n hn u hv hblk => ?_, ?_⟩
  · dsimp only
    rw [foldBlocks_succ, blockAt_pad m (by rwa [hlen])]
    exact execHblk_of_holds hv hblk
  · rw [← putDig_digest]
    exact execHash_of_holds hL hle hlen hm

/-! ### Runs of a host script (70_reset_and_hazards.md R203) -/

/-- `k` steps from `s` raise no fault and end in a state with the property. -/
def Reaches (k : Nat) (s : State) (P : State → Prop) : Prop := ∃ t, stepTimes k s = .next t ∧ P t

theorem reaches_zero {s : State} {P : State → Prop} (h : P s) : Reaches 0 s P := ⟨s, rfl, h⟩

theorem stepTimes_one (s : State) : stepTimes 1 s = step s := by
  simp only [stepTimes]
  cases step s <;> rfl

theorem reaches_one {s t : State} {P : State → Prop} (hstep : step s = .next t) (h : P t) : Reaches 1 s P :=
  ⟨t, (stepTimes_one s).trans hstep, h⟩

theorem stepTimes_add {s t : State} {k : Nat} (h : stepTimes k s = .next t) (l : Nat) :
    stepTimes (k + l) s = stepTimes l t := by
  induction k generalizing s with
  | zero => cases h; rw [Nat.zero_add]
  | succ k ih =>
    rw [Nat.add_right_comm, stepTimes]
    rw [stepTimes] at h
    cases hs : step s with
    | next u => rw [hs] at h; exact ih h
    | fault f => rw [hs] at h; cases h
    | refused r => rw [hs] at h; cases h

theorem Reaches.andThen {k l : Nat} {s : State} {P Q : State → Prop} (h : Reaches k s P)
    (hnext : ∀ t, P t → Reaches l t Q) : Reaches (k + l) s Q := by
  obtain ⟨t, ht, hP⟩ := h
  obtain ⟨u, hu, hQ⟩ := hnext t hP
  exact ⟨u, (stepTimes_add ht l).trans hu, hQ⟩

/-- A command at the head of the script that goes on is one step. -/
theorem reaches_cmd {i : Instr} {rest : List HostAction} {s t : State} {P : State → Prop}
    (hscript : s.script = Script.cmd i ++ rest) (hexec : exec i { s with script := rest } = .next t) (h : P t) :
    Reaches 1 s P :=
  reaches_one ((step_of_cmd (rest := rest) hscript (decode_encode i)).trans (by rw [hexec, absorbRefusal])) h

/-! ### The streaming script (44_hash_compression.md R150) -/

/-- Between two actions of the streaming script: the actions to come are `rest`, `V` holds `v`, PMSG holds the padded
message `p`, and no command has been refused. -/
structure Streaming (p : List Byte) (v : Vector Word 8) (rest : List HostAction) (s : State) : Prop where
  script : s.script = rest
  state : Holds s.v v
  padded : HoldsMessage s.pmsg p
  fits : p.length ≤ s.bufferSize .pmsg
  unrefused : s.refusal = none

/-- PAD stores the padded message, HINIT the initial value. -/
theorem reaches_streaming {s : State} {L : Len} {m : List Byte} {rest : List HostAction} (hL : s.mlen = .written L)
    (hle : L.toNat ≤ s.msgMax.val) (hlen : m.length = L.toNat) (hm : HoldsMessage s.msg m) (hmark : s.refusal = none)
    (hscript : s.script = Script.cmd .pad ++ (Script.cmd .hinit ++ rest)) :
    Reaches (1 + 1) s (Streaming (pad m) Config.IV rest) := by
  have hpad : Reaches 1 s (· = { s with script := Script.cmd .hinit ++ rest }.putPadded (pad m)) :=
    reaches_cmd hscript (execPad_of_holds hL hle hlen hm) rfl
  refine hpad.andThen fun t ht => ?_
  subst ht
  refine reaches_cmd (i := .hinit) (rest := rest) rfl rfl
    ⟨rfl, fun i hi => getElem_writtenAll _ hi, fun a ha => ?_, ?_, hmark⟩
  · change (s.pmsg.writeBytes 0 (pad m)).read a = _
    rw [Memory.read_writeBytes, if_pos ⟨a.zero_le, by omega⟩, Nat.sub_zero]
  · rw [pad_length, hlen]
    exact padlen_mono hle

theorem hostCopy_of_written {s : State} {dst src : ByteElem} {b : Byte} (hsrc : ByteExists s src)
    (hdst : ByteExists s dst) (hb : s.byteAt src = .written b) :
    hostCopy s dst src = .next ((s.deliver (.byte b)).setByte dst b) := by
  rw [hostCopy, ifByteExists_of_exists hsrc, ifByteExists_of_exists hdst, State.hostByte, hb]
  rfl

section Stream

variable {p : List Byte} {v : Vector Word 8} {n : Nat} {rest : List HostAction} {s : State}

/-- The host's copy of byte `i` of block `n`. -/
def copyBlockByte (n : Nat) (i : Fin 64) : HostAction := .copyByte (.hb i) (.buf .pmsg (64 * n + i.val))

theorem reaches_copyBlockByte {i : Fin 64} (h : Streaming p v (copyBlockByte n i :: rest) s)
    (hn : 64 * n + 64 ≤ p.length) :
    Reaches 1 s fun t => Streaming p v rest t ∧ t.hb = s.hb.set i (.written (blockAt p n)[i]) := by
  have ha : 64 * n + i.val < p.length := by omega
  have hbyte : s.pmsg.read (64 * n + i.val) = .written (blockAt p n)[i] :=
    (h.padded _ ha).trans (by simp [blockAt])
  have hsrc : ByteExists { s with script := rest } (.buf .pmsg (64 * n + i.val)) := by
    rintro S a ⟨⟩
    exact ha.trans_le h.fits
  have hdst : ByteExists { s with script := rest } (.hb i) := by rintro S a ⟨⟩
  exact reaches_one ((step_of_script h.script).trans (hostCopy_of_written hsrc hdst hbyte))
    ⟨⟨rfl, h.state, h.padded, h.fits, h.unrefused⟩, rfl⟩

/-- Bytes of block `n` copied one by one, each to its own place of HB. -/
theorem reaches_copyBlockBytes (is : List (Fin 64)) (h : Streaming p v (is.map (copyBlockByte n) ++ rest) s)
    (hn : 64 * n + 64 ≤ p.length) :
    Reaches is.length s fun t => Streaming p v rest t ∧
      ∀ i : Fin 64, t.hb[i] = if i ∈ is then .written (blockAt p n)[i] else s.hb[i] := by
  induction is generalizing s with
  | nil => exact reaches_zero ⟨h, fun i => (if_neg List.not_mem_nil).symm⟩
  | cons j js ih =>
    rw [List.length_cons, Nat.add_comm]
    refine (reaches_copyBlockByte h hn).andThen fun t ⟨ht, hset⟩ => ?_
    obtain ⟨u, hsteps, hu, hhb⟩ := ih ht
    refine ⟨u, hsteps, hu, fun i => ?_⟩
    rw [hhb, hset]
    by_cases hij : i = j
    · subst hij; simp
    · have hval : j.val ≠ i.val := fun hv => hij (Fin.ext hv.symm)
      simp [hij, hval]

/-- `cpy HB, PMSG+64n` loads block `n`. -/
theorem reaches_cpyHb (h : Streaming p v (Script.cpyHb (64 * n) ++ rest) s) (hn : 64 * n + 64 ≤ p.length) :
    Reaches 64 s fun t => Streaming p v rest t ∧ Holds t.hb (blockAt p n) := by
  obtain ⟨t, hsteps, ht, hhb⟩ := reaches_copyBlockBytes (List.finRange 64) h hn
  rw [List.length_finRange] at hsteps
  exact ⟨t, hsteps, ht, fun i hi => (hhb ⟨i, hi⟩).trans (if_pos (List.mem_finRange _))⟩

/-- The script's part for block `n`: its copy into HB, then HBLK. -/
def blockScript (n : Nat) : List HostAction := Script.cpyHb (64 * n) ++ Script.cmd .hblk

theorem reaches_blockScript (h : Streaming p v (blockScript n ++ rest) s) (hn : 64 * n + 64 ≤ p.length) :
    Reaches 65 s (Streaming p (cf v (blockAt p n)) rest) := by
  rw [blockScript, List.append_assoc] at h
  refine (reaches_cpyHb h hn).andThen (l := 1) fun t ⟨ht, hhb⟩ => ?_
  exact reaches_cmd ht.script (execHblk_of_holds (s := { t with script := rest }) ht.state hhb)
    ⟨rfl, fun i hi => getElem_writtenAll _ hi, ht.padded, ht.fits, ht.unrefused⟩

/-- The parts for the blocks `0 .. n-1` fold these blocks into V. -/
theorem reaches_blockScripts (h : Streaming p v ((List.range n).flatMap blockScript ++ rest) s)
    (hn : 64 * n ≤ p.length) : Reaches (65 * n) s (Streaming p (foldBlocks p n v) rest) := by
  induction n generalizing rest with
  | zero => exact reaches_zero h
  | succ n ih =>
    rw [List.range_succ, List.flatMap_append, List.flatMap_singleton, List.append_assoc] at h
    rw [foldBlocks_succ]
    exact (ih h (by omega)).andThen (l := 65) fun t ht => reaches_blockScript ht (by omega)

/-- HDIG, the script's last action, serialises V. -/
theorem reaches_hdig (h : Streaming p v (Script.cmd .hdig) s) :
    Reaches 1 s fun t => t.script = [] ∧ t.refusal = none ∧ t.dig = writtenAll (digest v) := by
  have hscript : s.script = Script.cmd .hdig ++ [] := h.script
  have hexec := execHdig_of_holds (s := { s with script := [] }) h.state
  exact reaches_cmd hscript hexec
    ⟨State.putDig_script _ _, (State.putDig_refusal _ _).trans h.unrefused, State.putDig_dig _ _⟩

end Stream

/-- Settles O26: the blocks the script folds are those HASH folds, from the same initial value. -/
theorem streamingEqualsOneShot : Obligations.StreamingEqualsOneShot := by
  intro s L m hL hle hlen hm hmark hscript
  have hblocks : 64 * (paddedLength L.toNat / 64) ≤ (pad m).length := by
    rw [pad_length, padlen_eq_paddedLength, hlen]
    exact Nat.mul_div_le _ _
  rw [List.append_assoc, List.append_assoc] at hscript
  have hrun := ((reaches_streaming hL hle hlen hm hmark hscript).andThen fun t ht =>
    reaches_blockScripts ht hblocks).andThen fun t ht => reaches_hdig ht
  obtain ⟨t, hsteps, hdone, hunrefused, hdig⟩ := hrun
  have hcount : 1 + 1 + 65 * (paddedLength L.toNat / 64) + 1 = 65 * (paddedLength L.toNat / 64) + 3 := by omega
  exact ⟨t, _, hcount ▸ hsteps, hdone, hunrefused, execHash_of_holds hL hle hlen hm, hdig⟩

end Sys2Proof.Machine
end

section
/-! SUPPORT. The family of 45_hash_4lane.md: lane `k` of a lifted operation is the operation on lane `k`, and so, in the
order of the engine's definitions, of the expansion, the rounds, the compression function and the fold over the blocks;
then what HASH4 answers on four messages of one length. -/

namespace Sys2Proof.Machine

open Sys2Proof.Claims

/-! ### Lifted operations (45_hash_4lane.md R161) -/

section Lifts

variable (x y z : Wide) (k : Fin 4)

@[simp] theorem Wide.lane_all (w : Word) : (Wide.all w).lane k = w := by
  fin_cases k <;> rfl

@[simp] theorem Wide.lane_map (op : Word → Word) : (Wide.map op x).lane k = op (x.lane k) := by
  fin_cases k <;> rfl

@[simp] theorem Wide.lane_map2 (op : Word → Word → Word) :
    (Wide.map2 op x y).lane k = op (x.lane k) (y.lane k) := by
  fin_cases k <;> rfl

@[simp] theorem Wide.lane_map3 (op : Word → Word → Word → Word) :
    (Wide.map3 op x y z).lane k = op (x.lane k) (y.lane k) (z.lane k) := by
  fin_cases k <;> rfl

@[simp] theorem Wide.lane_xor : (x.xor y).lane k = x.lane k ^^^ y.lane k := Wide.lane_map2 x y k _

@[simp] theorem Wide.lane_add : (x.add y).lane k = x.lane k + y.lane k := Wide.lane_map2 x y k _

@[simp] theorem Wide.lane_rotl (n : Nat) : (x.rotl n).lane k = rotl32 (x.lane k) n := Wide.lane_map x k _

@[simp] theorem Wide.lane_zero : Wide.zero.lane k = 0 := Wide.lane_all k 0

@[simp] theorem lane_wordBe4 (b : Vector (Vector Byte 64) 4) (i : Nat) :
    (wordBe4 b i).lane k = wordBe b[k].toList i := by
  fin_cases k <;> rfl

end Lifts

/-! ### The wide expansion (45_hash_4lane.md R161, 44_hash_compression.md R139, R140) -/

/-- Lane `k` of a list of wide words. -/
def laneWords (W : List Wide) (k : Fin 4) : List Word := W.map (Wide.lane · k)

/-- In the form `simp` gives `List.getD`. -/
@[simp] theorem lane_getElem?_getD (W : List Wide) (k : Fin 4) (j : Nat) :
    (W[j]?.getD .zero).lane k = (laneWords W k)[j]?.getD 0#32 := by
  rw [laneWords, List.getElem?_map]
  cases W[j]? with
  | none => exact Wide.lane_zero k
  | some x => rfl

theorem laneWords_expandStep4 (W : List Wide) (k : Fin 4) (j : Nat) :
    laneWords (expandStep4 W j) k = expandStep (laneWords W k) j := by
  rw [expandStep4, laneWords, List.map_append, ← laneWords]
  simp [expandStep]

theorem laneWords_expand4 (b : Vector (Vector Byte 64) 4) (k : Fin 4) : laneWords (expand4 b) k = expand b[k] := by
  have hblock : laneWords ((List.range 16).map (wordBe4 b)) k = (List.range 16).map (wordBe b[k].toList) := by
    simp [laneWords]
  rw [expand, ← hblock]
  exact (List.foldl_hom (laneWords · k) fun W j => (laneWords_expandStep4 W k j).symm).symm

theorem laneWords_deriveWords4 (W : List Wide) (k : Fin 4) :
    laneWords (deriveWords4 W) k = deriveWords (laneWords W k) := by
  rw [deriveWords4, laneWords, List.map_map]
  exact List.map_congr_left fun j _ => by simp

/-! ### The wide rounds (45_hash_4lane.md R161, 44_hash_compression.md R141) -/

/-- Lane `k` of the wide working registers. -/
def Regs4.lane (r : Regs4) (k : Fin 4) : Regs :=
  ⟨r.a.lane k, r.b.lane k, r.c.lane k, r.d.lane k, r.e.lane k, r.f.lane k, r.g.lane k, r.h.lane k⟩

theorem lane_cfRound4 (j : Nat) (r : Regs4) (w w1 : Wide) (k : Fin 4) :
    (cfRound4 j r w w1).lane k = cfRound j (r.lane k) (w.lane k) (w1.lane k) := by
  have hss1 : (ss1Wide j r).lane k = ss1 j (r.lane k) := by simp [ss1Wide, ss1, Regs4.lane]
  have hss2 : (ss2Wide j r).lane k = ss2 j (r.lane k) := by simp [ss2Wide, ss2, hss1, Regs4.lane]
  have htt1 : (tt1Wide j r w1).lane k = tt1 j (r.lane k) (w1.lane k) := by simp [tt1Wide, tt1, hss2, Regs4.lane]
  have htt2 : (tt2Wide j r w).lane k = tt2 j (r.lane k) (w.lane k) := by simp [tt2Wide, tt2, hss1, Regs4.lane]
  simp [Regs4.lane, cfRound4, cfRound, htt1, htt2]

theorem lane_cfRounds4 (W W1 : List Wide) (r : Regs4) (k : Fin 4) :
    (cfRounds4 W W1 r).lane k = cfRounds (laneWords W k) (laneWords W1 k) (r.lane k) :=
  (List.foldl_hom (Regs4.lane · k) fun r j => by simp [lane_cfRound4]).symm

theorem lane_loadRegs4 (vw : Vector Wide 8) (k : Fin 4) : (loadRegs4 vw).lane k = loadRegs (laneState vw k) := by
  simp [loadRegs4, loadRegs, laneState, Regs4.lane]

theorem laneState_regWords4 (r : Regs4) (k : Fin 4) : laneState (regWords4 r) k = regWords (r.lane k) := rfl

/-! ### The wide compression function (45_hash_4lane.md R162) -/

/-- Settles O27: the expansion, the loaded registers and the rounds are scalar in each lane, and so is the feedback. -/
theorem wideCompressionIsLaneWise : Obligations.WideCompressionIsLaneWise := by
  intro vw b k
  have hrounds : (cfRounds4 (expand4 b) (deriveWords4 (expand4 b)) (loadRegs4 vw)).lane k =
      cfRounds (expand b[k]) (deriveWords (expand b[k])) (loadRegs (laneState vw k)) := by
    rw [lane_cfRounds4, laneWords_deriveWords4, laneWords_expand4, lane_loadRegs4]
  ext1 i hi
  rw [cf, ← hrounds, ← laneState_regWords4]
  simp [laneState, cf4]

/-! ### Four digests in lockstep (45_hash_4lane.md R163, R164) -/

theorem laneState_iv4 (k : Fin 4) : laneState iv4 k = Config.IV := by
  ext1 i hi
  simp [laneState, iv4]

theorem laneState_foldl_cf4 (p : Vector (List Byte) 4) (n : Nat) (vw : Vector Wide 8) (k : Fin 4) :
    laneState ((List.range n).foldl (fun vw n => cf4 vw (blocksAt p n)) vw) k =
      foldBlocks p[k] n (laneState vw k) :=
  (List.foldl_hom (laneState · k) fun vw n => by simp [wideCompressionIsLaneWise vw, blocksAt]).symm

/-- The lanes step together as often as lane 0 has blocks, which is right for a lane of the same length. -/
theorem getElem_sm3Hash4_of_length_eq {m : Vector (List Byte) 4} {k : Fin 4} (h : m[k].length = m[0].length) :
    (sm3Hash4 m)[k] = sm3Hash m[k] := by
  simp [sm3Hash4, sm3Hash, laneState_foldl_cf4, laneState_iv4, ← h]

/-! ### HASH4 (45_hash_4lane.md R165) -/

/-- Four messages of length `L` in range, one in each lane's buffer, and the four lengths written. -/
structure HoldsLanes (s : State) (L : Len) (m : Vector (List Byte) 4) : Prop where
  lengths : ∀ k : Fin 4, s.ml4[k] = .written L
  fits : L.toNat ≤ s.msgMax.val
  messages : ∀ k : Fin 4, m[k].length = L.toNat ∧ HoldsMessage s.msg4[k] m[k]

section LaneBatch

variable {s : State} {L : Len} {m : Vector (List Byte) 4}

theorem HoldsLanes.readAll_ml4 (h : HoldsLanes s L m) : readAll s.ml4 = some (Vector.replicate 4 L) :=
  readAll_eq_some.mpr fun i hi => by rw [Vector.getElem_replicate]; exact h.lengths ⟨i, hi⟩

theorem HoldsLanes.readLanes_eq (h : HoldsLanes s L m) : readLanes s L.toNat = some m :=
  readLanes_eq_some.mpr fun k => by
    obtain ⟨hlen, hmsg⟩ := h.messages k
    rw [← hlen]
    exact readBytes_of_holdsMessage hmsg

theorem HoldsLanes.withLanes_eq (h : HoldsLanes s L m) (f : Vector (List Byte) 4 → Result) : withLanes s f = f m := by
  have hrange : outOfRange s L = false := by rw [Bool.eq_false_iff, Ne, outOfRange_iff]; exact h.fits.not_gt
  simp [withLanes, h.readAll_ml4, operand, hrange, h.readLanes_eq]

theorem HoldsLanes.execHash4_eq (h : HoldsLanes s L m) : execHash4 s = .next (s.putDig4 (sm3Hash4 m)) :=
  h.withLanes_eq _

theorem HoldsLanes.getElem_sm3Hash4 (h : HoldsLanes s L m) (k : Fin 4) : (sm3Hash4 m)[k] = sm3Hash m[k] :=
  getElem_sm3Hash4_of_length_eq ((h.messages k).1.trans (h.messages 0).1.symm)

/-- The messages moved between the lanes: lane `k` takes that of lane `σ k`. -/
theorem HoldsLanes.moved (h : HoldsLanes s L m) (σ : Fin 4 → Fin 4) :
    HoldsLanes { s with msg4 := Vector.ofFn fun k => s.msg4[σ k] } L (Vector.ofFn fun k => m[σ k]) :=
  ⟨h.lengths, h.fits, fun k => by simpa using h.messages (σ k)⟩

end LaneBatch

/-- Settles O28: HASH4 writes the wide engine's digests, and each is the scalar one of its lane's message. -/
theorem hash4GivesFourScalarDigests : Obligations.Hash4GivesFourScalarDigests := by
  intro s L m hlens hle hmsgs
  have h : HoldsLanes s L m := ⟨hlens, hle, hmsgs⟩
  refine ⟨sm3Hash4 m, h.execHash4_eq, fun k => ?_⟩
  obtain ⟨hlen, hmsg⟩ := hmsgs k
  rw [h.getElem_sm3Hash4 k]
  exact withMessage_of_holds (s := { s with mlen := .written L, msg := s.msg4[k] }) rfl hle hlen hmsg _

/-- Settles O29: the digest of a lane is that of its message alone, in whichever lane the message stands. -/
theorem lanesAreIsolated : Obligations.LanesAreIsolated := by
  intro s L m σ hlens hle hmsgs
  have h : HoldsLanes s L m := ⟨hlens, hle, hmsgs⟩
  refine ⟨_, _, h.execHash4_eq, (h.moved σ).execHash4_eq, fun k => ?_⟩
  have hdigest : (sm3Hash4 (Vector.ofFn fun k => m[σ k]))[k] = (sm3Hash4 m)[σ k] := by
    rw [(h.moved σ).getElem_sm3Hash4, h.getElem_sm3Hash4]
    simp
  simpa using congrArg writtenAll hdigest

end Sys2Proof.Machine
end

section
/-! SUPPORT. The family of 60_exceptions.md: what each command is refused for, reason by reason, as one equivalence over all
ten; then the statements about refusals, reserved codes, the refusal mark and the idle block. -/

namespace Sys2Proof.Machine

open Sys2Proof.Claims

/-! ### What is read is unwritten (60_exceptions.md R174) -/

/-- A range read gives nothing exactly when some byte of the range is unwritten. -/
theorem Memory.readBytes_eq_none {m : Memory} : ∀ {n a : Nat},
    m.readBytes a n = none ↔ ∃ i < n, m.read (a + i) = .unwritten
  | 0, _ => by simp [Memory.readBytes]
  | n + 1, a => by
    have ih : m.readBytes (a + 1) n = none ↔ ∃ i < n, m.read (a + (i + 1)) = .unwritten := by
      simp only [Memory.readBytes_eq_none (n := n), Nat.add_assoc, Nat.add_comm 1]
    rw [Nat.exists_lt_succ_left, Nat.add_zero, ← ih]
    cases hhead : m.read a with
    | unwritten => simp [Memory.readBytes, hhead]
    | written b => cases htail : m.readBytes (a + 1) n <;> simp [Memory.readBytes, hhead, htail]

theorem Memory.readBytes_zero_eq_none {m : Memory} {n : Nat} :
    m.readBytes 0 n = none ↔ ∃ a < n, m.read a = .unwritten := by
  simp only [Memory.readBytes_eq_none, Nat.zero_add]

theorem someUnwritten_iff {w n : Nat} {r : Vector (Slot (BitVec w)) n} : SomeUnwritten r ↔ readAll r = none :=
  readAll_eq_none.symm

/-- The lane messages are not read exactly when one of them is not. -/
theorem readLanes_eq_none {s : State} {n : Nat} :
    readLanes s n = none ↔ ∃ k : Fin 4, ∃ a < n, (s.msg4[k]).read a = .unwritten := by
  simp only [← Memory.readBytes_zero_eq_none]
  constructor
  · intro h
    by_contra hall
    simp only [not_exists, ← Ne.eq_def, Option.ne_none_iff_exists'] at hall
    choose m hm using hall
    have hread : readLanes s n = some (Vector.ofFn m) := readLanes_eq_some.mpr fun k => by simpa using hm k
    rw [h] at hread; cases hread
  · rintro ⟨k, hk⟩
    refine Option.eq_none_iff_forall_ne_some.mpr fun m hm => ?_
    rw [readLanes_eq_some.mp hm k] at hk; cases hk

/-! ### The lengths of a command (60_exceptions.md R175, R176) -/

/-- MSG_MAX is at most 2^61 - 1, so its bound is the tighter one. -/
theorem beyond_either_bound_iff (s : State) (n : Nat) :
    (s.msgMax.val < n ∨ 2 ^ 61 - 1 < n) ↔ s.msgMax.val < n := by
  have hmax : s.msgMax.val < 2 ^ 61 := s.msgMax.isLt
  omega

theorem any_outOfRange_iff {s : State} {L : Vector Len 4} :
    L.toList.any (outOfRange s) = true ↔ ∃ k : Fin 4, s.msgMax.val < L[k].toNat := by
  simp only [List.any_eq_true, outOfRange_iff, List.mem_iff_getElem]
  constructor
  · rintro ⟨_, ⟨i, hi, rfl⟩, h⟩
    exact ⟨⟨i, by simpa using hi⟩, by simpa using h⟩
  · rintro ⟨k, h⟩
    exact ⟨L[k], ⟨k, by simp, by simp⟩, h⟩

theorem any_outOfRange_eq_false_iff {s : State} {L : Vector Len 4} :
    L.toList.any (outOfRange s) = false ↔ ∀ k : Fin 4, L[k].toNat ≤ s.msgMax.val := by
  rw [← Bool.not_eq_true, any_outOfRange_iff]
  simp only [not_exists, not_lt]

/-! ### Refusals of the shared operations -/

section Shared

variable {α β : Type} {s : State} {r : Refusal}

theorem operand_refused_iff {o : Option α} {f : α → State} :
    operand o (fun x => .next (f x)) = .refused r ↔ r = .unwrittenOperand ∧ o = none := by
  cases o <;> simp [operand, eq_comm]

theorem operand_operand_refused_iff {o : Option α} {o' : Option β} {f : α → β → State} :
    operand o (fun x => operand o' fun y => .next (f x y)) = .refused r ↔
      r = .unwrittenOperand ∧ (o = none ∨ o' = none) := by
  cases o <;> cases o' <;> simp [operand, eq_comm]

/-- MLEN is unwritten, or is in range and delimits an unwritten byte of MSG. -/
def State.lacksMessage (s : State) : Prop :=
  s.mlen = .unwritten ∨ ∃ L : Len, s.mlen = .written L ∧ L.toNat ≤ s.msgMax.val ∧
    ∃ a < L.toNat, s.msg.read a = .unwritten

theorem withMessage_refused_iff {f : List Byte → State} :
    withMessage s (fun m => .next (f m)) = .refused r ↔
      (r = .unwrittenOperand ∧ s.lacksMessage) ∨
      (r = .lengthOutOfRange ∧ ∃ L : Len, s.mlen = .written L ∧ s.msgMax.val < L.toNat) := by
  simp only [State.lacksMessage, ← Memory.readBytes_zero_eq_none]
  rcases withMessage_cases s fun m => .next (f m) with
    ⟨hlen, hr⟩ | ⟨L, hlen, ⟨hgt, hr⟩ | ⟨hle, ⟨hread, hr⟩ | ⟨m, hread, hr⟩⟩⟩
  · simp [hr, hlen, eq_comm]
  · simp [hr, hlen, hgt, hgt.not_ge, eq_comm]
  · simp [hr, hlen, hle, hle.not_gt, hread, eq_comm]
  · simp [hr, hlen, hle.not_gt, hread]

/-- A length register ML4[k] is unwritten, or the four hold one length in range, which delimits an unwritten byte of a
lane's message. -/
def State.lacksLanes (s : State) : Prop :=
  SomeUnwritten s.ml4 ∨ ∃ L : Len, (∀ k : Fin 4, s.ml4[k] = .written L) ∧ L.toNat ≤ s.msgMax.val ∧
    ∃ k : Fin 4, ∃ a < L.toNat, (s.msg4[k]).read a = .unwritten

/-- Four equal lengths are one length in every lane. -/
theorem lacksLanes_iff :
    s.lacksLanes ↔ readAll s.ml4 = none ∨ ∃ L, readAll s.ml4 = some L ∧ L.toList.any (outOfRange s) = false ∧
      (L[0] = L[1] ∧ L[1] = L[2] ∧ L[2] = L[3]) ∧ readLanes s L[0].toNat = none := by
  simp only [readAll_eq_some, any_outOfRange_eq_false_iff, readLanes_eq_none]
  refine or_congr someUnwritten_iff ⟨?_, ?_⟩
  · rintro ⟨L, hlen, hle, hbyte⟩
    exact ⟨Vector.replicate 4 L, fun i hi => by simpa using hlen ⟨i, hi⟩, fun k => by simpa using hle, by simp,
      by simpa using hbyte⟩
  · rintro ⟨L, hlen, hle, heq, hbyte⟩
    exact ⟨L[0], fun k => laneLength_eq_first heq k ▸ hlen k k.isLt, hle 0, hbyte⟩

theorem withLanes_refused_iff {f : Vector (List Byte) 4 → State} :
    withLanes s (fun m => .next (f m)) = .refused r ↔
      (r = .unwrittenOperand ∧ s.lacksLanes) ∨
      (r = .lengthOutOfRange ∧ ∃ L : Vector Len 4, Holds s.ml4 L ∧ ∃ k : Fin 4, s.msgMax.val < L[k].toNat) ∨
      (r = .laneLengthMismatch ∧ ∃ L : Vector Len 4, Holds s.ml4 L ∧ (∀ k : Fin 4, L[k].toNat ≤ s.msgMax.val) ∧
        ¬(L[0] = L[1] ∧ L[1] = L[2] ∧ L[2] = L[3])) := by
  simp only [lacksLanes_iff, Holds, ← readAll_eq_some, ← any_outOfRange_iff, ← any_outOfRange_eq_false_iff]
  rcases withLanes_cases s fun m => .next (f m) with
    ⟨hlens, hr⟩ | ⟨L, hlens, ⟨hout, hr⟩ | ⟨hin, ⟨hne, hr⟩ | ⟨heq, ⟨hread, hr⟩ | ⟨m, hread, hr⟩⟩⟩⟩
  · simp [hr, hlens, eq_comm (a := r)]
  · simp only [hr, hlens, hout, Option.some.injEq, exists_eq_left']
    simp [eq_comm (a := r)]
  · simp only [hr, hlens, hin, iff_false_intro hne, Option.some.injEq, exists_eq_left']
    simp [eq_comm (a := r)]
  · simp only [hr, hlens, hin, iff_true_intro heq, hread, Option.some.injEq, exists_eq_left']
    simp [eq_comm (a := r)]
  · simp only [hr, hlens, hin, iff_true_intro heq, hread, Option.some.injEq, exists_eq_left']
    simp

end Shared

/-! ### Refusals of the ten commands (60_exceptions.md R173 to R178) -/

/-- Something the command reads is unwritten: lengths first, message bytes once the lengths have passed (R174, R178). -/
def State.lacksOperand (s : State) : Instr → Prop
  | .subw => s.swIn = .unwritten
  | .kexp => SomeUnwritten s.key
  | .enc | .dec => SomeUnwritten s.blkIn ∨ SomeUnwritten s.rk
  | .pad | .hash => s.lacksMessage
  | .hinit => False
  | .hblk => SomeUnwritten s.v ∨ SomeUnwritten s.hb
  | .hdig => SomeUnwritten s.v
  | .hash4 => s.lacksLanes

/-- The lengths the command takes are written and one exceeds MSG_MAX (R175). -/
def State.lengthBeyond (s : State) : Instr → Prop
  | .pad | .hash => ∃ L : Len, s.mlen = .written L ∧ s.msgMax.val < L.toNat
  | .hash4 => ∃ L : Vector Len 4, Holds s.ml4 L ∧ ∃ k : Fin 4, s.msgMax.val < L[k].toNat
  | .subw | .kexp | .enc | .dec | .hinit | .hblk | .hdig => False

/-- The command takes four lengths, written and in range, and they are not all equal (R176). -/
def State.lengthsDiffer (s : State) : Instr → Prop
  | .hash4 => ∃ L : Vector Len 4, Holds s.ml4 L ∧ (∀ k : Fin 4, L[k].toNat ≤ s.msgMax.val) ∧
      ¬(L[0] = L[1] ∧ L[1] = L[2] ∧ L[2] = L[3])
  | .subw | .kexp | .enc | .dec | .pad | .hinit | .hblk | .hdig | .hash => False

/-- Exactly when, and for which reason, each command is refused. -/
theorem exec_refused_iff {i : Instr} {s : State} {r : Refusal} :
    exec i s = .refused r ↔
      (r = .unwrittenOperand ∧ s.lacksOperand i) ∨ (r = .lengthOutOfRange ∧ s.lengthBeyond i) ∨
      (r = .laneLengthMismatch ∧ s.lengthsDiffer i) := by
  cases i <;>
    simp only [State.lacksOperand, State.lengthBeyond, State.lengthsDiffer, someUnwritten_iff, and_false, or_false]
  case subw => rw [← Slot.get?_eq_none]; exact operand_refused_iff
  case kexp | hdig => exact operand_refused_iff
  case enc | dec | hblk => exact operand_operand_refused_iff
  case pad | hash => exact withMessage_refused_iff
  case hinit => exact iff_of_false nofun id
  case hash4 => exact withLanes_refused_iff

section Reasons

variable {i : Instr} {s : State}

theorem exec_unwrittenOperand_iff : exec i s = .refused .unwrittenOperand ↔ s.lacksOperand i := by
  simp [exec_refused_iff]

theorem exec_lengthOutOfRange_iff : exec i s = .refused .lengthOutOfRange ↔ s.lengthBeyond i := by
  simp [exec_refused_iff]

theorem exec_laneLengthMismatch_iff : exec i s = .refused .laneLengthMismatch ↔ s.lengthsDiffer i := by
  simp [exec_refused_iff]

theorem exec_ne_illegalCommand : exec i s ≠ .refused .illegalCommand := by
  simp [exec_refused_iff]

theorem exec_refused_reason {r : Refusal} (h : exec i s = .refused r) :
    r = .unwrittenOperand ∨ r = .lengthOutOfRange ∨ r = .laneLengthMismatch :=
  (exec_refused_iff.mp h).imp And.left (Or.imp And.left And.left)

theorem instr_of_lengthBeyond (h : s.lengthBeyond i) : i = .pad ∨ i = .hash ∨ i = .hash4 := by
  cases i with
  | pad | hash | hash4 => simp
  | _ => exact h.elim

theorem instr_of_lengthsDiffer (h : s.lengthsDiffer i) : i = .hash4 := by
  cases i with
  | hash4 => rfl
  | _ => exact h.elim

end Reasons

/-- Settles O34: for each command, what it lacks is what the statement lists. -/
theorem unwrittenOperandIsRefusedExactly : Obligations.UnwrittenOperandIsRefusedExactly := by
  intro s
  refine ⟨exec_unwrittenOperand_iff, exec_unwrittenOperand_iff, exec_unwrittenOperand_iff, exec_unwrittenOperand_iff,
    exec_unwrittenOperand_iff, exec_unwrittenOperand_iff, fun i hi => ?_, exec_unwrittenOperand_iff⟩
  simp only [List.mem_cons, List.not_mem_nil, or_false] at hi
  rcases hi with rfl | rfl
  · exact exec_unwrittenOperand_iff
  · exact exec_unwrittenOperand_iff

/-- Settles O35: the refusal tests MSG_MAX alone, which decides both bounds. -/
theorem lengthOutOfRangeExactly : Obligations.LengthOutOfRangeExactly := by
  intro s
  simp only [beyond_either_bound_iff, implies_true, and_true]
  refine ⟨fun i hi => ?_, exec_lengthOutOfRange_iff⟩
  simp only [List.mem_cons, List.not_mem_nil, or_false] at hi
  rcases hi with rfl | rfl
  · exact exec_lengthOutOfRange_iff
  · exact exec_lengthOutOfRange_iff

/-- Settles O36: the lengths are compared once they are all written and in range. -/
theorem laneLengthMismatchExactly : Obligations.LaneLengthMismatchExactly := fun _ => exec_laneLengthMismatch_iff

/-! ### Writes to CMD (60_exceptions.md R173, R177) -/

/-- A refused write to CMD is of no command's code, or of a command that is refused. -/
theorem issue_refused_iff {c : Byte} {s : State} {r : Refusal} :
    issue c s = .refused r ↔
      (r = .illegalCommand ∧ ∀ i, decode c ≠ .ok i) ∨ ∃ i, decode c = .ok i ∧ exec i s = .refused r := by
  cases hc : decode c with
  | ok i => simp [issue, hc]
  | error e => simp [issue, hc, eq_comm]

theorem issue_illegalCommand_iff {c : Byte} {s : State} :
    issue c s = .refused .illegalCommand ↔ ∀ i, c ≠ encode i := by
  simp [issue_refused_iff, exec_ne_illegalCommand, decode_eq_ok_iff]

/-- The values R75 lists are those that are the code of no command. -/
theorem reservedCode_iff {c : Byte} : reservedCode c.toNat ↔ ∀ i, c ≠ encode i := by
  constructor
  · rintro h i rfl
    revert h
    cases i <;> exact fun h => absurd h (by unfold reservedCode; decide)
  · intro h
    have hne (i : Instr) : c.toNat ≠ (encode i).toNat := fun heq => h i (BitVec.eq_of_toNat_eq heq)
    have hlt : c.toNat < 256 := c.isLt
    have h00 : c.toNat ≠ 0x00 := hne .subw
    have h10 : c.toNat ≠ 0x10 := hne .kexp
    have h12 : c.toNat ≠ 0x12 := hne .enc
    have h13 : c.toNat ≠ 0x13 := hne .dec
    have h20 : c.toNat ≠ 0x20 := hne .pad
    have h21 : c.toNat ≠ 0x21 := hne .hinit
    have h22 : c.toNat ≠ 0x22 := hne .hblk
    have h23 : c.toNat ≠ 0x23 := hne .hdig
    have h24 : c.toNat ≠ 0x24 := hne .hash
    have h30 : c.toNat ≠ 0x30 := hne .hash4
    unfold reservedCode
    omega

/-- Settles O2: no command answers IllegalCommand, so it marks the words that are no command's code. -/
theorem reservedCodesAreIllegal : Obligations.ReservedCodesAreIllegal := fun _ _ =>
  issue_illegalCommand_iff.trans reservedCode_iff.symm

/-- Settles O33: of the three reasons, a length out of range needs a command that takes lengths, and unequal lengths need
HASH4. -/
theorem refusalReasonsAreClosed : Obligations.RefusalReasonsAreClosed := by
  intro s
  refine ⟨fun i f => exec_ne_fault i s, fun r => nofun, fun i r hi h => ?_, fun i r hi h => ?_,
    fun r h => exec_refused_reason h, fun c r h => ?_⟩
  · rcases exec_refused_iff.mp h with ⟨hr, -⟩ | ⟨-, hbeyond⟩ | ⟨-, hdiffer⟩
    · exact hr
    · rcases instr_of_lengthBeyond hbeyond with rfl | rfl | rfl <;> simp at hi
    · rw [instr_of_lengthsDiffer hdiffer] at hi; simp at hi
  · rcases exec_refused_iff.mp h with ⟨hr, -⟩ | ⟨hr, -⟩ | ⟨-, hdiffer⟩
    · exact .inl hr
    · exact .inr hr
    · rw [instr_of_lengthsDiffer hdiffer] at hi; simp at hi
  · rcases issue_refused_iff.mp h with ⟨hr, -⟩ | ⟨i, -, he⟩
    · exact .inl hr
    · exact .inr (exec_refused_reason he)

/-! ### The refusal mark (60_exceptions.md R172, R181) -/

theorem State.markRefused_eq (s : State) (r : Refusal) :
    s.markRefused r = { s with refusal := some (s.refusal.getD r) } := by
  rw [← s.markRefused_refusal r]; rfl

/-- Settles O6: the refusal is absorbed, and marking keeps the first reason. -/
theorem refusedCommandOnlySetsTheMark : Obligations.RefusedCommandOnlySetsTheMark := by
  intro s c rest r hs h
  refine ⟨_, ?_, State.markRefused_eq { s with script := rest } r⟩
  rw [step_of_script hs, perform, h, absorbRefusal]

/-- No command touches the mark or MSG_MAX. -/
theorem exec_mark_frame {i : Instr} {s t : State} (h : exec i s = .next t) :
    t.msgMax = s.msgMax ∧ t.refusal = s.refusal := by
  cases exec_writesColumn h <;> simp

/-- No host action changes MSG_MAX; RESET clears the mark, a refused command sets it, and nothing else touches it. -/
theorem perform_mark {a : HostAction} {s t : State} (h : perform a s = .next t) :
    t.msgMax = s.msgMax ∧
    ((a = .reset ∧ t.refusal = none) ∨ t.refusal = s.refusal ∨
      ∃ c r, a = .cmd c ∧ issue c s = .refused r ∧ t.refusal = some (s.refusal.getD r)) := by
  rcases perform_cases h with ⟨ha, rfl⟩ | ⟨c, i, -, -, he⟩ | ⟨c, r, ha, hr, rfl⟩ | ⟨e, b, -, hb⟩ | ⟨e, w, -, rfl⟩ |
    ⟨e, l, -, rfl⟩ | ⟨e, -, hread⟩ | ⟨dst, src, -, hcopy⟩
  · exact ⟨rfl, .inl ⟨ha, rfl⟩⟩
  · obtain ⟨hmax, hmark⟩ := exec_mark_frame he
    exact ⟨hmax, .inr (.inl hmark)⟩
  · exact ⟨rfl, .inr (.inr ⟨c, r, ha, hr, s.markRefused_refusal r⟩)⟩
  · cases ifByteExists_next hb
    exact ⟨by simp, .inr (.inl (by simp))⟩
  · exact ⟨by simp, .inr (.inl (by simp))⟩
  · exact ⟨by simp, .inr (.inl (by simp))⟩
  · obtain ⟨rs, n, rfl⟩ := hostRead_next hread
    exact ⟨rfl, .inr (.inl rfl)⟩
  · obtain ⟨rs, n, b, rfl⟩ := hostCopy_next hcopy
    exact ⟨by simp [State.withBookkeeping], .inr (.inl (by simp [State.withBookkeeping]))⟩

/-- Settles O46: by what a host action can do to the mark. -/
theorem refusalMarkIsSticky : Obligations.RefusalMarkIsSticky := by
  intro s t h
  rcases step_cases s with ⟨-, hidle⟩ | ⟨a, rest, hs, hstep⟩
  · rw [hidle] at h; cases h
    exact ⟨rfl, fun _ _ hr => hr, fun r hnone hr => by rw [hnone] at hr; cases hr⟩
  · obtain ⟨hmax, hmark⟩ := perform_mark (hstep.symm.trans h)
    refine ⟨hmax, fun hreset r hr => ?_, fun r hnone hr => ?_⟩
    · rcases hmark with ⟨rfl, -⟩ | hmark | ⟨c, r', -, -, hmark⟩
      · exact absurd (by rw [hs]; rfl) hreset
      · exact hmark.trans hr
      · simpa [hr] using hmark
    · rcases hmark with ⟨-, hmark⟩ | hmark | ⟨c, r', rfl, hissue, hmark⟩
      · rw [hmark] at hr; cases hr
      · rw [hmark, hnone] at hr; cases hr
      · have hrr : r' = r := by simpa [hr, hnone, eq_comm] using hmark
        exact ⟨c, rest, hs, hrr ▸ hissue⟩

/-! ### The idle block (60_exceptions.md R186) -/

/-- Settles O7: an action would have to be in the script. -/
theorem noActionLeavesTheBlockIdle : Obligations.NoActionLeavesTheBlockIdle := by
  intro s hs
  rcases step_cases s with ⟨-, hidle⟩ | ⟨a, rest, hcons, -⟩
  · exact hidle
  · rw [hs] at hcons; cases hcons

end Sys2Proof.Machine
end

section
/-! SUPPORT. The reset event (70_reset_and_hazards.md R190, R192). -/

namespace Sys2Proof.Machine

/-- Settles O38: the step performs the RESET at the head of the script, on the state without it. -/
theorem resetEventReturnsToReset : Obligations.ResetEventReturnsToReset := by
  intro s rest hs
  rw [step_of_script hs, perform, State.resetEvent]

end Sys2Proof.Machine
end
